-- ==== Sys2Proof/Word.lean ====
section
/-! DEFINITION. The word types of the BCC: widths of rules R6, R10, R12, R90 and R96. -/

namespace Sys2Proof

/-- One access moves one byte (R6 `DATA_W`, R66). -/
abbrev Byte := BitVec 8

/-- An address in either space (R6 `ADDR_W`, R60). -/
abbrev Addr := BitVec 16

/-- The access-origin tag: `CPU` = 0, `PPU` = 1, 2 and 3 unassigned and passed through (R71, R95). -/
abbrev Origin := BitVec 2

/-- A source identifier, 16 bits in the operation word (R24, R96). -/
abbrev SrcId := BitVec 16

/-- A time in nanoseconds (R12, R31). -/
abbrev Time := BitVec 64

/-- The operation word, format `W` (R90, R96). -/
abbrev OpWord := BitVec 32

/-- The sequencer word, format `S` (R90, R98). -/
abbrev SeqWord := BitVec 5

/-- The two address spaces (R60): `c`, the processor's, and `p`, the picture unit's. -/
inductive Space where
  | c
  | p
deriving DecidableEq, Repr

end Sys2Proof
end

