-- ==== Sys2Proof/Config.lean ====
section
/-! DEFINITION. The constants and parameters of rules R6 to R8, what the outside world presents to the BCC
(R16, R31, R44 to R47), and the two free values of the model. -/

namespace Sys2Proof

/-! ## Constants the document fixes (R6): "load-bearing hardware facts and must match exactly" -/

/-- Fold mask of processor addresses `0x0000` to `0x1FFF` (R6). -/
abbrev Config.ramMask : Addr := 0x07FF#16
/-- Number of working-RAM cells (R6, R22). -/
abbrev Config.ramSize : Nat := 0x0800
/-- Low bits kept in the picture-unit register window (R6). -/
abbrev Config.pregMask : Addr := 0x0007#16
/-- Base of the picture-unit register window (R6). -/
abbrev Config.pregBase : Addr := 0x2000#16
/-- Fold mask of picture-unit addresses `0x2000` to `0x3EFF` (R6). -/
abbrev Config.ntMask : Addr := 0x2FFF#16
/-- Fold mask of picture-unit addresses `0x4000` and above (R6). -/
abbrev Config.pspaceMask : Addr := 0x3FFF#16
/-- What an unmapped processor address reads as (R6, R132). -/
abbrev Config.unmappedRead : Byte := 0x00#8

/-! ## Parameters (R7, R8) -/

/-- The parameters a model takes as arguments (R7, R8). A fold is a table of exceptions to the default of R8:
`(offset, cell)` sends that offset to that cell, and an offset the table does not name is its own cell, so every
total fold of R8 is some table. -/
structure Params where
  /-- `BATCH`, iterations per batch (R7). -/
  batch : Nat
  /-- `CPU_HZ` (R7). -/
  cpuHz : Nat
  /-- `FRAME_W` (R8). -/
  frameW : Nat
  /-- `FRAME_H` (R8). -/
  frameH : Nat
  /-- `PIX_BYTES` (R8). -/
  pixBytes : Nat
  /-- `CTRL_W`, bits of the controller snapshot (R8). -/
  ctrlW : Nat
  /-- `VRAM_FOLD`, exceptions to the identity on the low 12 bits (R8). -/
  vramFold : List (Nat × Nat)
  /-- `PAL_FOLD`, exceptions to the low 8 bits (R8). -/
  palFold : List (Nat × Nat)
deriving DecidableEq, Repr, Inhabited

/-- The constraints of R7, R8 and the open-parameter table of 92_eei_decisions.md: each is at least 1. -/
def Params.valid (p : Params) : Bool :=
  1 ≤ p.batch && 1 ≤ p.cpuHz && 1 ≤ p.frameW && 1 ≤ p.frameH && 1 ≤ p.pixBytes && 1 ≤ p.ctrlW

/-- `IMG_SIZE = FRAME_W * FRAME_H * PIX_BYTES` (R8, R35). -/
def Params.imgSize (p : Params) : Nat := p.frameW * p.frameH * p.pixBytes

/-- `BUDGET_NS = floor(BATCH * 10^9 / CPU_HZ)` in exact integer arithmetic (R7, R14). -/
def Params.budgetNs (p : Params) : Nat := p.batch * 1000000000 / p.cpuHz

/-- The parameters at `State.reset`: R7's defaults, the default folds of R8, and for the sizes R8 leaves open the
ones the vectors of 95_test_vectors.md use (`IMG_SIZE == 16`, `CTRL_W == 8`). DESIGN CHOICE, log entry 10; unsafe
for a statement about the reset state alone. -/
def Params.default : Params :=
  { batch := 2000, cpuHz := 1789773, frameW := 4, frameH := 4, pixBytes := 1, ctrlW := 8,
    vramFold := [], palFold := [] }

/-! ## What the outside world presents -/

/-- The byte stores the BCC holds (R22, R23, R35). -/
inductive Store where
  | ram
  | vram
  | pal
  | img
deriving DecidableEq, Repr

/-- One operation performed while an entry of a collaborator runs (R16: an entry "issues finitely many BCC
operations"), log entry 3. `ans` is the byte the device answers when the access is routed to a device (R16: "a byte
chosen by `dev`"). The last three are operations of `PRES` that fall between two of them (R17). -/
inductive Act where
  | read (sp : Space) (a : Addr) (org : Origin) (ans : Byte)
  | write (sp : Space) (a : Addr) (org : Origin) (v : Byte)
  | irqReg (id : SrcId)
  | srcSet (id : SrcId)
  | srcClr (id : SrcId)
  | imgWrite (off : Nat) (bytes : List Byte)
  | ctrlRead
  | imgRead
  | ctrlWrite (v : Nat)
  | shutdown
deriving DecidableEq, Repr

/-- What a collaborator does while one of its entries runs: nothing more, or one operation, then the rest. `inner` is
what the device that the operation calls does before its own entry returns, so calls nest as they do in the pseudocode
(R12, R16), even into the router whose access is still open: DESIGN CHOICE, log entry 24. Log entries 3 and 18. -/
inductive Activity where
  | done
  | op (act : Act) (inner next : Activity)
deriving DecidableEq, Repr, Inhabited

/-- What the ports carry beside the word of one operation (R31, R44, R46, R47). An operation reads only the
fields its rule names. -/
structure Inputs where
  /-- `now`, sampled by `CLK.START` and `SEQ.PACE` (R31). -/
  now : Time
  /-- `wake`, the time at which the sleep of `SEQ.PACE` returns (R195). -/
  wake : Time
  /-- `dev_rd`, what the device of a bus read answers (R16, R44). -/
  devRd : Byte
  /-- The offset on the data path of `IMG.WRITE` (R47, R220). -/
  imgOff : Nat
  /-- The bytes on the data path of `IMG.WRITE` (R47, R220). -/
  imgBytes : List Byte
  /-- The value on the data path of `CTRL.WRITE` (R47, R222). -/
  ctrlVal : Nat
  /-- What the collaborator entry this operation calls, for `CLK.START` `CPU.reset()`, does while it runs (R16). -/
  acts : Activity
  /-- What `APU.play()`, the second entry `CLK.START` calls, does while it runs (R16, R186). -/
  playActs : Activity
deriving DecidableEq, Repr, Inhabited

/-- An operation presented to the BCC: a `W` word on its ports, or one turn of the emulation agent, which performs
the micro-operation of the sequencer's position (R187: the agent issues `CLK.TICK` "continuously"). -/
inductive Request where
  | word (w : OpWord) (inp : Inputs)
  | tick (inp : Inputs)
deriving DecidableEq, Repr

/-- The inputs that come with a request. -/
def Request.inputs : Request → Inputs
  | .word _ inp => inp
  | .tick inp => inp

/-- The `W` word of a request; a turn of the emulation agent stands for `CLK.TICK`, `0x31000000` (R96, R187). -/
def Request.opWord : Request → OpWord
  | .word w _ => w
  | .tick _ => 0x31000000#32

/-! ## Free values: no body, so nothing in Lean can evaluate them or prove a value of them -/

/-- `MEM_INIT` (R8, R50, U1): the byte a cell holds at power-on, one draw per cell, fixed. Log entry 8. -/
opaque Config.memInit : Store → Nat → Byte

/-- What the environment supplies with the `n`-th turn of the emulation agent for which no request states its
inputs: the times of R31 and what the collaborators do (R16, R43). Log entry 2. -/
opaque Config.freeInputs : Nat → Inputs

end Sys2Proof
end

