-- ==== Sys2Proof/Syntax.lean ====
section
/-! DEFINITION. The operations of the BCC: one constructor per row of spec/opcode_table.json. A bus row carries the
origin tag and, where its block has more than one address, the whole 16-bit address; a write its data. Fields a rule
calls ignored are not carried (R96, V6), log entry 13. -/

namespace Sys2Proof

/-- An operation of the BCC (R90, R104). -/
inductive Instr where
  /-- `C.RAM.RD` (R122). -/
  | cRamRd (org : Origin) (a : Addr)
  /-- `C.RAM.WR` (R123). -/
  | cRamWr (org : Origin) (a : Addr) (v : Byte)
  /-- `C.PPUREG.RD` (R124). -/
  | cPpuregRd (org : Origin) (a : Addr)
  /-- `C.PPUREG.WR` (R125). -/
  | cPpuregWr (org : Origin) (a : Addr) (v : Byte)
  /-- `C.APU.RD@4000-400F` (R126). -/
  | cApuRd4000 (org : Origin) (a : Addr)
  /-- `C.APU.RD@4010-4013` (R126). -/
  | cApuRd4010 (org : Origin) (a : Addr)
  /-- `C.APU.RD@4015` (R126). -/
  | cApuRd4015 (org : Origin)
  /-- `C.APU.RD@4017` (R126). -/
  | cApuRd4017 (org : Origin)
  /-- `C.APU.WR@4000-400F` (R127). -/
  | cApuWr4000 (org : Origin) (a : Addr) (v : Byte)
  /-- `C.APU.WR@4010-4013` (R127). -/
  | cApuWr4010 (org : Origin) (a : Addr) (v : Byte)
  /-- `C.APU.WR@4015` (R127). -/
  | cApuWr4015 (org : Origin) (v : Byte)
  /-- `C.APU.WR@4017` (R127). -/
  | cApuWr4017 (org : Origin) (v : Byte)
  /-- `C.OAMDMA.RD` (R128). -/
  | cOamdmaRd (org : Origin)
  /-- `C.OAMDMA.WR` (R129). -/
  | cOamdmaWr (org : Origin) (v : Byte)
  /-- `C.CTRL.RD` (R130). -/
  | cCtrlRd (org : Origin)
  /-- `C.CTRL.WR` (R131). -/
  | cCtrlWr (org : Origin) (v : Byte)
  /-- `C.NONE.RD@4018-401F` (R132). -/
  | cNoneRd4018 (org : Origin) (a : Addr)
  /-- `C.NONE.RD@4020-403F` (R132). -/
  | cNoneRd4020 (org : Origin) (a : Addr)
  /-- `C.NONE.RD@4040-407F` (R132). -/
  | cNoneRd4040 (org : Origin) (a : Addr)
  /-- `C.NONE.RD@4080-40FF` (R132). -/
  | cNoneRd4080 (org : Origin) (a : Addr)
  /-- `C.NONE.RD@4100-41FF` (R132). -/
  | cNoneRd4100 (org : Origin) (a : Addr)
  /-- `C.NONE.RD@4200-43FF` (R132). -/
  | cNoneRd4200 (org : Origin) (a : Addr)
  /-- `C.NONE.RD@4400-47FF` (R132). -/
  | cNoneRd4400 (org : Origin) (a : Addr)
  /-- `C.NONE.RD@4800-4FFF` (R132). -/
  | cNoneRd4800 (org : Origin) (a : Addr)
  /-- `C.NONE.RD@5000-5FFF` (R132). -/
  | cNoneRd5000 (org : Origin) (a : Addr)
  /-- `C.NONE.WR@4018-401F` (R133). -/
  | cNoneWr4018 (org : Origin) (a : Addr) (v : Byte)
  /-- `C.NONE.WR@4020-403F` (R133). -/
  | cNoneWr4020 (org : Origin) (a : Addr) (v : Byte)
  /-- `C.NONE.WR@4040-407F` (R133). -/
  | cNoneWr4040 (org : Origin) (a : Addr) (v : Byte)
  /-- `C.NONE.WR@4080-40FF` (R133). -/
  | cNoneWr4080 (org : Origin) (a : Addr) (v : Byte)
  /-- `C.NONE.WR@4100-41FF` (R133). -/
  | cNoneWr4100 (org : Origin) (a : Addr) (v : Byte)
  /-- `C.NONE.WR@4200-43FF` (R133). -/
  | cNoneWr4200 (org : Origin) (a : Addr) (v : Byte)
  /-- `C.NONE.WR@4400-47FF` (R133). -/
  | cNoneWr4400 (org : Origin) (a : Addr) (v : Byte)
  /-- `C.NONE.WR@4800-4FFF` (R133). -/
  | cNoneWr4800 (org : Origin) (a : Addr) (v : Byte)
  /-- `C.NONE.WR@5000-5FFF` (R133). -/
  | cNoneWr5000 (org : Origin) (a : Addr) (v : Byte)
  /-- `C.CART.RD@6000-7FFF` (R134). -/
  | cCartRd6000 (org : Origin) (a : Addr)
  /-- `C.CART.RD@8000-FFFF` (R134). -/
  | cCartRd8000 (org : Origin) (a : Addr)
  /-- `C.CART.WR@6000-7FFF` (R135). -/
  | cCartWr6000 (org : Origin) (a : Addr) (v : Byte)
  /-- `C.CART.WR@8000-FFFF` (R135). -/
  | cCartWr8000 (org : Origin) (a : Addr) (v : Byte)
  /-- `P.CART.RD` (R152). -/
  | pCartRd (org : Origin) (a : Addr)
  /-- `P.CART.WR` (R153). -/
  | pCartWr (org : Origin) (a : Addr) (v : Byte)
  /-- `P.VRAM.RD@2000-2FFF` (R154). -/
  | pVramRd2000 (org : Origin) (a : Addr)
  /-- `P.VRAM.RD@3000-37FF` (R154). -/
  | pVramRd3000 (org : Origin) (a : Addr)
  /-- `P.VRAM.RD@3800-3BFF` (R154). -/
  | pVramRd3800 (org : Origin) (a : Addr)
  /-- `P.VRAM.RD@3C00-3DFF` (R154). -/
  | pVramRd3C00 (org : Origin) (a : Addr)
  /-- `P.VRAM.RD@3E00-3EFF` (R154). -/
  | pVramRd3E00 (org : Origin) (a : Addr)
  /-- `P.VRAM.WR@2000-2FFF` (R155). -/
  | pVramWr2000 (org : Origin) (a : Addr) (v : Byte)
  /-- `P.VRAM.WR@3000-37FF` (R155). -/
  | pVramWr3000 (org : Origin) (a : Addr) (v : Byte)
  /-- `P.VRAM.WR@3800-3BFF` (R155). -/
  | pVramWr3800 (org : Origin) (a : Addr) (v : Byte)
  /-- `P.VRAM.WR@3C00-3DFF` (R155). -/
  | pVramWr3C00 (org : Origin) (a : Addr) (v : Byte)
  /-- `P.VRAM.WR@3E00-3EFF` (R155). -/
  | pVramWr3E00 (org : Origin) (a : Addr) (v : Byte)
  /-- `P.PAL.RD` (R156). -/
  | pPalRd (org : Origin) (a : Addr)
  /-- `P.PAL.WR` (R157). -/
  | pPalWr (org : Origin) (a : Addr) (v : Byte)
  /-- `IRQ.REG` (R170). -/
  | irqReg (id : SrcId)
  /-- `IRQ.POLL` (R172). -/
  | irqPoll
  /-- `SRC.SET` (R173). -/
  | srcSet (id : SrcId)
  /-- `SRC.CLR` (R174). -/
  | srcClr (id : SrcId)
  /-- `CLK.START` (R186). -/
  | clkStart
  /-- `CLK.TICK` (R187). -/
  | clkTick
  /-- `CLK.SHUTDOWN` (R197). -/
  | clkShutdown
  /-- `IMG.WRITE` (R220). -/
  | imgWrite
  /-- `IMG.READ` (R221). -/
  | imgRead
  /-- `CTRL.WRITE` (R222). -/
  | ctrlWrite
  /-- `CTRL.READ` (R223). -/
  | ctrlRead
  /-- `SEQ.IDLE` (R198). -/
  | seqIdle
  /-- `SEQ.TOP` (R188). -/
  | seqTop
  /-- `SEQ.CPU` (R189). -/
  | seqCpu
  /-- `SEQ.APU` (R190). -/
  | seqApu
  /-- `SEQ.PPU0` (R191). -/
  | seqPpu0
  /-- `SEQ.PPU1` (R192). -/
  | seqPpu1
  /-- `SEQ.PPU2` (R193). -/
  | seqPpu2
  /-- `SEQ.PACE` (R194). -/
  | seqPace
  /-- `SEQ.DRAIN` (R196). -/
  | seqDrain
  /-- `SEQ.HALT` (R198). -/
  | seqHalt
deriving DecidableEq, Repr

end Sys2Proof
end

