-- ==== Sys2Proof/WellFormed.lean ====
section
/-! DEFINITION. Which operation terms are operations of the table: the address of a bus row lies in the row's block
(R104: a row per operation "and contiguous power-of-two address block"); in space `P` bits 15 and 14 of the address
are ignored (R92, R158). Every other operand may hold any value. -/

namespace Sys2Proof

/-- `lo <= a <= hi`, both ends included (R11). -/
def inRange (lo hi : Nat) (a : Addr) : Bool := lo ≤ a.toNat && a.toNat ≤ hi

/-- The operand check of each row (R104; the blocks are the table's mnemonics' own, and R122 to R135, R152 to R157). -/
def wellFormed : Instr → Bool
  | .cRamRd _ a => inRange 0x0000 0x1FFF a
  | .cRamWr _ a _ => inRange 0x0000 0x1FFF a
  | .cPpuregRd _ a => inRange 0x2000 0x3FFF a
  | .cPpuregWr _ a _ => inRange 0x2000 0x3FFF a
  | .cApuRd4000 _ a => inRange 0x4000 0x400F a
  | .cApuRd4010 _ a => inRange 0x4010 0x4013 a
  | .cApuRd4015 _ => true
  | .cApuRd4017 _ => true
  | .cApuWr4000 _ a _ => inRange 0x4000 0x400F a
  | .cApuWr4010 _ a _ => inRange 0x4010 0x4013 a
  | .cApuWr4015 _ _ => true
  | .cApuWr4017 _ _ => true
  | .cOamdmaRd _ => true
  | .cOamdmaWr _ _ => true
  | .cCtrlRd _ => true
  | .cCtrlWr _ _ => true
  | .cNoneRd4018 _ a => inRange 0x4018 0x401F a
  | .cNoneRd4020 _ a => inRange 0x4020 0x403F a
  | .cNoneRd4040 _ a => inRange 0x4040 0x407F a
  | .cNoneRd4080 _ a => inRange 0x4080 0x40FF a
  | .cNoneRd4100 _ a => inRange 0x4100 0x41FF a
  | .cNoneRd4200 _ a => inRange 0x4200 0x43FF a
  | .cNoneRd4400 _ a => inRange 0x4400 0x47FF a
  | .cNoneRd4800 _ a => inRange 0x4800 0x4FFF a
  | .cNoneRd5000 _ a => inRange 0x5000 0x5FFF a
  | .cNoneWr4018 _ a _ => inRange 0x4018 0x401F a
  | .cNoneWr4020 _ a _ => inRange 0x4020 0x403F a
  | .cNoneWr4040 _ a _ => inRange 0x4040 0x407F a
  | .cNoneWr4080 _ a _ => inRange 0x4080 0x40FF a
  | .cNoneWr4100 _ a _ => inRange 0x4100 0x41FF a
  | .cNoneWr4200 _ a _ => inRange 0x4200 0x43FF a
  | .cNoneWr4400 _ a _ => inRange 0x4400 0x47FF a
  | .cNoneWr4800 _ a _ => inRange 0x4800 0x4FFF a
  | .cNoneWr5000 _ a _ => inRange 0x5000 0x5FFF a
  | .cCartRd6000 _ a => inRange 0x6000 0x7FFF a
  | .cCartRd8000 _ a => inRange 0x8000 0xFFFF a
  | .cCartWr6000 _ a _ => inRange 0x6000 0x7FFF a
  | .cCartWr8000 _ a _ => inRange 0x8000 0xFFFF a
  | .pCartRd _ a => inRange 0x0000 0x1FFF (a &&& Config.pspaceMask)
  | .pCartWr _ a _ => inRange 0x0000 0x1FFF (a &&& Config.pspaceMask)
  | .pVramRd2000 _ a => inRange 0x2000 0x2FFF (a &&& Config.pspaceMask)
  | .pVramRd3000 _ a => inRange 0x3000 0x37FF (a &&& Config.pspaceMask)
  | .pVramRd3800 _ a => inRange 0x3800 0x3BFF (a &&& Config.pspaceMask)
  | .pVramRd3C00 _ a => inRange 0x3C00 0x3DFF (a &&& Config.pspaceMask)
  | .pVramRd3E00 _ a => inRange 0x3E00 0x3EFF (a &&& Config.pspaceMask)
  | .pVramWr2000 _ a _ => inRange 0x2000 0x2FFF (a &&& Config.pspaceMask)
  | .pVramWr3000 _ a _ => inRange 0x3000 0x37FF (a &&& Config.pspaceMask)
  | .pVramWr3800 _ a _ => inRange 0x3800 0x3BFF (a &&& Config.pspaceMask)
  | .pVramWr3C00 _ a _ => inRange 0x3C00 0x3DFF (a &&& Config.pspaceMask)
  | .pVramWr3E00 _ a _ => inRange 0x3E00 0x3EFF (a &&& Config.pspaceMask)
  | .pPalRd _ a => inRange 0x3F00 0x3FFF (a &&& Config.pspaceMask)
  | .pPalWr _ a _ => inRange 0x3F00 0x3FFF (a &&& Config.pspaceMask)
  | .irqReg _ => true
  | .irqPoll => true
  | .srcSet _ => true
  | .srcClr _ => true
  | .clkStart => true
  | .clkTick => true
  | .clkShutdown => true
  | .imgWrite => true
  | .imgRead => true
  | .ctrlWrite => true
  | .ctrlRead => true
  | .seqIdle => true
  | .seqTop => true
  | .seqCpu => true
  | .seqApu => true
  | .seqPpu0 => true
  | .seqPpu1 => true
  | .seqPpu2 => true
  | .seqPace => true
  | .seqDrain => true
  | .seqHalt => true

end Sys2Proof
end

