-- ==== Sys2Proof/Decode.lean ====
section
/-! DEFINITION. The decoder of the three formats (R90 to R101), total, rejecting by name; after it the encoder, written
from the same rules, and the rows of spec/opcode_table.json. -/

namespace Sys2Proof

/-! ## Decoding -/

/-- A word of one of the two fixed-length formats that select an operation (R90, R101). -/
inductive Code where
  | w (word : OpWord)
  | s (word : SeqWord)
deriving DecidableEq, Repr

/-- Why a word selects no operation (R100; 93_implementation_defined.md V1 to V5). -/
inductive Reject where
  /-- `unit` 5 to 15 (V1). -/
  | reservedUnit
  /-- Units 0 and 1 with `fn[3] == 1` (V2). -/
  | reservedBusFn
  /-- Unit 2 with `fn` 4 to 15 (V3). -/
  | reservedIrqFn
  /-- Unit 3 with `fn` 3 to 15 (V3). -/
  | reservedClkFn
  /-- Unit 4 with an agent and operation pair R97 does not allow (V4). -/
  | wrongAgent
  /-- `S == 01111` (V5). -/
  | unusedSlot
deriving DecidableEq, Repr

/-- Space `C` reads: the row of the address, in ascending order (R62, R91). -/
def decodeCRead (org : Origin) (a : Addr) : Instr :=
  if a.toNat ≤ 0x1FFF then .cRamRd org a
  else if a.toNat ≤ 0x3FFF then .cPpuregRd org a
  else if a.toNat ≤ 0x400F then .cApuRd4000 org a
  else if a.toNat ≤ 0x4013 then .cApuRd4010 org a
  else if a.toNat ≤ 0x4014 then .cOamdmaRd org
  else if a.toNat ≤ 0x4015 then .cApuRd4015 org
  else if a.toNat ≤ 0x4016 then .cCtrlRd org
  else if a.toNat ≤ 0x4017 then .cApuRd4017 org
  else if a.toNat ≤ 0x401F then .cNoneRd4018 org a
  else if a.toNat ≤ 0x403F then .cNoneRd4020 org a
  else if a.toNat ≤ 0x407F then .cNoneRd4040 org a
  else if a.toNat ≤ 0x40FF then .cNoneRd4080 org a
  else if a.toNat ≤ 0x41FF then .cNoneRd4100 org a
  else if a.toNat ≤ 0x43FF then .cNoneRd4200 org a
  else if a.toNat ≤ 0x47FF then .cNoneRd4400 org a
  else if a.toNat ≤ 0x4FFF then .cNoneRd4800 org a
  else if a.toNat ≤ 0x5FFF then .cNoneRd5000 org a
  else if a.toNat ≤ 0x7FFF then .cCartRd6000 org a
  else .cCartRd8000 org a

/-- Space `C` writes (R62, R91). -/
def decodeCWrite (org : Origin) (a : Addr) (v : Byte) : Instr :=
  if a.toNat ≤ 0x1FFF then .cRamWr org a v
  else if a.toNat ≤ 0x3FFF then .cPpuregWr org a v
  else if a.toNat ≤ 0x400F then .cApuWr4000 org a v
  else if a.toNat ≤ 0x4013 then .cApuWr4010 org a v
  else if a.toNat ≤ 0x4014 then .cOamdmaWr org v
  else if a.toNat ≤ 0x4015 then .cApuWr4015 org v
  else if a.toNat ≤ 0x4016 then .cCtrlWr org v
  else if a.toNat ≤ 0x4017 then .cApuWr4017 org v
  else if a.toNat ≤ 0x401F then .cNoneWr4018 org a v
  else if a.toNat ≤ 0x403F then .cNoneWr4020 org a v
  else if a.toNat ≤ 0x407F then .cNoneWr4040 org a v
  else if a.toNat ≤ 0x40FF then .cNoneWr4080 org a v
  else if a.toNat ≤ 0x41FF then .cNoneWr4100 org a v
  else if a.toNat ≤ 0x43FF then .cNoneWr4200 org a v
  else if a.toNat ≤ 0x47FF then .cNoneWr4400 org a v
  else if a.toNat ≤ 0x4FFF then .cNoneWr4800 org a v
  else if a.toNat ≤ 0x5FFF then .cNoneWr5000 org a v
  else if a.toNat ≤ 0x7FFF then .cCartWr6000 org a v
  else .cCartWr8000 org a v

/-- Space `P` reads: the row of the folded address `b`, bits 15 and 14 ignored (R63, R92, R158). -/
def decodePRead (org : Origin) (a : Addr) : Instr :=
  let b := a &&& Config.pspaceMask
  if b.toNat ≤ 0x1FFF then .pCartRd org a
  else if b.toNat ≤ 0x2FFF then .pVramRd2000 org a
  else if b.toNat ≤ 0x37FF then .pVramRd3000 org a
  else if b.toNat ≤ 0x3BFF then .pVramRd3800 org a
  else if b.toNat ≤ 0x3DFF then .pVramRd3C00 org a
  else if b.toNat ≤ 0x3EFF then .pVramRd3E00 org a
  else .pPalRd org a

/-- Space `P` writes (R63, R92, R158). -/
def decodePWrite (org : Origin) (a : Addr) (v : Byte) : Instr :=
  let b := a &&& Config.pspaceMask
  if b.toNat ≤ 0x1FFF then .pCartWr org a v
  else if b.toNat ≤ 0x2FFF then .pVramWr2000 org a v
  else if b.toNat ≤ 0x37FF then .pVramWr3000 org a v
  else if b.toNat ≤ 0x3BFF then .pVramWr3800 org a v
  else if b.toNat ≤ 0x3DFF then .pVramWr3C00 org a v
  else if b.toNat ≤ 0x3EFF then .pVramWr3E00 org a v
  else .pPalWr org a v

/-- `W[31:28]` (R96). -/
def unitOf (w : OpWord) : BitVec 4 := w.extractLsb' 28 4
/-- `W[27:24]` (R96). -/
def fnOf (w : OpWord) : BitVec 4 := w.extractLsb' 24 4
/-- `W[23:8]` (R96). -/
def arg16Of (w : OpWord) : BitVec 16 := w.extractLsb' 8 16
/-- `W[7:0]` (R96). -/
def arg8Of (w : OpWord) : Byte := w.extractLsb' 0 8
/-- `fn[2:1]` of units 0 and 1 (R96). -/
def orgOf (fn : BitVec 4) : Origin := fn.extractLsb' 1 2

/-- Units 0 and 1 (R96, R100): `fn[3]` reserved, `fn[0]` write. -/
def decodeBus (rd : Origin → Addr → Instr) (wr : Origin → Addr → Byte → Instr) (w : OpWord) : Except Reject Instr :=
  if (fnOf w).getLsbD 3 then .error .reservedBusFn
  else if (fnOf w).getLsbD 0 then .ok (wr (orgOf (fnOf w)) (arg16Of w) (arg8Of w))
  else .ok (rd (orgOf (fnOf w)) (arg16Of w))

/-- Unit 2 (R96). -/
def decodeIrq (w : OpWord) : Except Reject Instr :=
  if fnOf w = 0#4 then .ok (.irqReg (arg16Of w))
  else if fnOf w = 1#4 then .ok .irqPoll
  else if fnOf w = 2#4 then .ok (.srcSet (arg16Of w))
  else if fnOf w = 3#4 then .ok (.srcClr (arg16Of w))
  else .error .reservedIrqFn

/-- Unit 3 (R96). -/
def decodeClk (w : OpWord) : Except Reject Instr :=
  if fnOf w = 0#4 then .ok .clkStart
  else if fnOf w = 1#4 then .ok .clkTick
  else if fnOf w = 2#4 then .ok .clkShutdown
  else .error .reservedClkFn

/-- Unit 4: the four agent and operation pairs of R97. -/
def decodeSfs (w : OpWord) : Except Reject Instr :=
  if fnOf w = 0b0000#4 then .ok .imgWrite
  else if fnOf w = 0b0101#4 then .ok .imgRead
  else if fnOf w = 0b0110#4 then .ok .ctrlWrite
  else if fnOf w = 0b0011#4 then .ok .ctrlRead
  else .error .wrongAgent

/-- Format `W` (R96, R97, R100). -/
def decodeW (w : OpWord) : Except Reject Instr :=
  if unitOf w = 0#4 then decodeBus decodeCRead decodeCWrite w
  else if unitOf w = 1#4 then decodeBus decodePRead decodePWrite w
  else if unitOf w = 2#4 then decodeIrq w
  else if unitOf w = 3#4 then decodeClk w
  else if unitOf w = 4#4 then decodeSfs w
  else .error .reservedUnit

/-- `S[4:3]`, the coordinator state (R90, R98). -/
def cstateOf (w : SeqWord) : BitVec 2 := w.extractLsb' 3 2
/-- `S[2:0]`, the slot (R90, R98). -/
def slotOf (w : SeqWord) : BitVec 3 := w.extractLsb' 0 3

/-- The seven slots of `Running` (R98). -/
def decodeSlot (slot : BitVec 3) : Except Reject Instr :=
  if slot = 0#3 then .ok .seqTop
  else if slot = 1#3 then .ok .seqCpu
  else if slot = 2#3 then .ok .seqApu
  else if slot = 3#3 then .ok .seqPpu0
  else if slot = 4#3 then .ok .seqPpu1
  else if slot = 5#3 then .ok .seqPpu2
  else if slot = 6#3 then .ok .seqPace
  else .error .unusedSlot

/-- Format `S` (R98). -/
def decodeS (w : SeqWord) : Except Reject Instr :=
  if cstateOf w = 0#2 then .ok .seqIdle
  else if cstateOf w = 1#2 then decodeSlot (slotOf w)
  else if cstateOf w = 2#2 then .ok .seqDrain
  else .ok .seqHalt

/-- The decoder: total on the words of both formats (R90, R101). -/
def decode : Code → Except Reject Instr
  | .w word => decodeW word
  | .s word => decodeS word

/-! ## Encoding -/

/-- `{unit, fn, arg16, arg8}` (R96). -/
def opWord (unit fn : BitVec 4) (arg16 : BitVec 16) (arg8 : Byte) : OpWord := unit ++ fn ++ arg16 ++ arg8

/-- A bus word: `fn` is `{0, org, we}` (R96, R120, R121, R150, R151). -/
def busWord (unit : BitVec 4) (org : Origin) (we : Bool) (a : Addr) (v : Byte) : OpWord :=
  opWord unit (0#1 ++ org ++ BitVec.ofBool we) a v

/-- `{cstate, slot}` (R98). -/
def seqWord (cstate : BitVec 2) (slot : BitVec 3) : SeqWord := cstate ++ slot

/-- The word of an operation, ignored fields zero (R96, R98). -/
def encode : Instr → Code
  | .cRamRd org a => .w (busWord 0#4 org false a 0#8)
  | .cRamWr org a v => .w (busWord 0#4 org true a v)
  | .cPpuregRd org a => .w (busWord 0#4 org false a 0#8)
  | .cPpuregWr org a v => .w (busWord 0#4 org true a v)
  | .cApuRd4000 org a => .w (busWord 0#4 org false a 0#8)
  | .cApuRd4010 org a => .w (busWord 0#4 org false a 0#8)
  | .cApuRd4015 org => .w (busWord 0#4 org false 0x4015#16 0#8)
  | .cApuRd4017 org => .w (busWord 0#4 org false 0x4017#16 0#8)
  | .cApuWr4000 org a v => .w (busWord 0#4 org true a v)
  | .cApuWr4010 org a v => .w (busWord 0#4 org true a v)
  | .cApuWr4015 org v => .w (busWord 0#4 org true 0x4015#16 v)
  | .cApuWr4017 org v => .w (busWord 0#4 org true 0x4017#16 v)
  | .cOamdmaRd org => .w (busWord 0#4 org false 0x4014#16 0#8)
  | .cOamdmaWr org v => .w (busWord 0#4 org true 0x4014#16 v)
  | .cCtrlRd org => .w (busWord 0#4 org false 0x4016#16 0#8)
  | .cCtrlWr org v => .w (busWord 0#4 org true 0x4016#16 v)
  | .cNoneRd4018 org a => .w (busWord 0#4 org false a 0#8)
  | .cNoneRd4020 org a => .w (busWord 0#4 org false a 0#8)
  | .cNoneRd4040 org a => .w (busWord 0#4 org false a 0#8)
  | .cNoneRd4080 org a => .w (busWord 0#4 org false a 0#8)
  | .cNoneRd4100 org a => .w (busWord 0#4 org false a 0#8)
  | .cNoneRd4200 org a => .w (busWord 0#4 org false a 0#8)
  | .cNoneRd4400 org a => .w (busWord 0#4 org false a 0#8)
  | .cNoneRd4800 org a => .w (busWord 0#4 org false a 0#8)
  | .cNoneRd5000 org a => .w (busWord 0#4 org false a 0#8)
  | .cNoneWr4018 org a v => .w (busWord 0#4 org true a v)
  | .cNoneWr4020 org a v => .w (busWord 0#4 org true a v)
  | .cNoneWr4040 org a v => .w (busWord 0#4 org true a v)
  | .cNoneWr4080 org a v => .w (busWord 0#4 org true a v)
  | .cNoneWr4100 org a v => .w (busWord 0#4 org true a v)
  | .cNoneWr4200 org a v => .w (busWord 0#4 org true a v)
  | .cNoneWr4400 org a v => .w (busWord 0#4 org true a v)
  | .cNoneWr4800 org a v => .w (busWord 0#4 org true a v)
  | .cNoneWr5000 org a v => .w (busWord 0#4 org true a v)
  | .cCartRd6000 org a => .w (busWord 0#4 org false a 0#8)
  | .cCartRd8000 org a => .w (busWord 0#4 org false a 0#8)
  | .cCartWr6000 org a v => .w (busWord 0#4 org true a v)
  | .cCartWr8000 org a v => .w (busWord 0#4 org true a v)
  | .pCartRd org a => .w (busWord 1#4 org false a 0#8)
  | .pCartWr org a v => .w (busWord 1#4 org true a v)
  | .pVramRd2000 org a => .w (busWord 1#4 org false a 0#8)
  | .pVramRd3000 org a => .w (busWord 1#4 org false a 0#8)
  | .pVramRd3800 org a => .w (busWord 1#4 org false a 0#8)
  | .pVramRd3C00 org a => .w (busWord 1#4 org false a 0#8)
  | .pVramRd3E00 org a => .w (busWord 1#4 org false a 0#8)
  | .pVramWr2000 org a v => .w (busWord 1#4 org true a v)
  | .pVramWr3000 org a v => .w (busWord 1#4 org true a v)
  | .pVramWr3800 org a v => .w (busWord 1#4 org true a v)
  | .pVramWr3C00 org a v => .w (busWord 1#4 org true a v)
  | .pVramWr3E00 org a v => .w (busWord 1#4 org true a v)
  | .pPalRd org a => .w (busWord 1#4 org false a 0#8)
  | .pPalWr org a v => .w (busWord 1#4 org true a v)
  | .irqReg id => .w (opWord 2#4 0#4 id 0#8)
  | .irqPoll => .w (opWord 2#4 1#4 0#16 0#8)
  | .srcSet id => .w (opWord 2#4 2#4 id 0#8)
  | .srcClr id => .w (opWord 2#4 3#4 id 0#8)
  | .clkStart => .w (opWord 3#4 0#4 0#16 0#8)
  | .clkTick => .w (opWord 3#4 1#4 0#16 0#8)
  | .clkShutdown => .w (opWord 3#4 2#4 0#16 0#8)
  | .imgWrite => .w (opWord 4#4 0#4 0#16 0#8)
  | .imgRead => .w (opWord 4#4 5#4 0#16 0#8)
  | .ctrlWrite => .w (opWord 4#4 6#4 0#16 0#8)
  | .ctrlRead => .w (opWord 4#4 3#4 0#16 0#8)
  | .seqIdle => .s (seqWord 0#2 0#3)
  | .seqTop => .s (seqWord 1#2 0#3)
  | .seqCpu => .s (seqWord 1#2 1#3)
  | .seqApu => .s (seqWord 1#2 2#3)
  | .seqPpu0 => .s (seqWord 1#2 3#3)
  | .seqPpu1 => .s (seqWord 1#2 4#3)
  | .seqPpu2 => .s (seqWord 1#2 5#3)
  | .seqPace => .s (seqWord 1#2 6#3)
  | .seqDrain => .s (seqWord 2#2 0#3)
  | .seqHalt => .s (seqWord 3#2 0#3)

/-! ## The machine-readable table (R104) -/

/-- Format, `mask` and `match` of one row of opcode_table.json. -/
inductive TableRow where
  | w (mask pattern : BitVec 32)
  | s (mask pattern : BitVec 5)
deriving DecidableEq, Repr

/-- The row of each operation, transcribed from spec/opcode_table.json. -/
def tableRow : Instr → TableRow
  | .cRamRd _ _ => .w 0xF9E00000#32 0x00000000#32
  | .cRamWr _ _ _ => .w 0xF9E00000#32 0x01000000#32
  | .cPpuregRd _ _ => .w 0xF9E00000#32 0x00200000#32
  | .cPpuregWr _ _ _ => .w 0xF9E00000#32 0x01200000#32
  | .cApuRd4000 _ _ => .w 0xF9FFF000#32 0x00400000#32
  | .cApuRd4010 _ _ => .w 0xF9FFFC00#32 0x00401000#32
  | .cApuRd4015 _ => .w 0xF9FFFF00#32 0x00401500#32
  | .cApuRd4017 _ => .w 0xF9FFFF00#32 0x00401700#32
  | .cApuWr4000 _ _ _ => .w 0xF9FFF000#32 0x01400000#32
  | .cApuWr4010 _ _ _ => .w 0xF9FFFC00#32 0x01401000#32
  | .cApuWr4015 _ _ => .w 0xF9FFFF00#32 0x01401500#32
  | .cApuWr4017 _ _ => .w 0xF9FFFF00#32 0x01401700#32
  | .cOamdmaRd _ => .w 0xF9FFFF00#32 0x00401400#32
  | .cOamdmaWr _ _ => .w 0xF9FFFF00#32 0x01401400#32
  | .cCtrlRd _ => .w 0xF9FFFF00#32 0x00401600#32
  | .cCtrlWr _ _ => .w 0xF9FFFF00#32 0x01401600#32
  | .cNoneRd4018 _ _ => .w 0xF9FFF800#32 0x00401800#32
  | .cNoneRd4020 _ _ => .w 0xF9FFE000#32 0x00402000#32
  | .cNoneRd4040 _ _ => .w 0xF9FFC000#32 0x00404000#32
  | .cNoneRd4080 _ _ => .w 0xF9FF8000#32 0x00408000#32
  | .cNoneRd4100 _ _ => .w 0xF9FF0000#32 0x00410000#32
  | .cNoneRd4200 _ _ => .w 0xF9FE0000#32 0x00420000#32
  | .cNoneRd4400 _ _ => .w 0xF9FC0000#32 0x00440000#32
  | .cNoneRd4800 _ _ => .w 0xF9F80000#32 0x00480000#32
  | .cNoneRd5000 _ _ => .w 0xF9F00000#32 0x00500000#32
  | .cNoneWr4018 _ _ _ => .w 0xF9FFF800#32 0x01401800#32
  | .cNoneWr4020 _ _ _ => .w 0xF9FFE000#32 0x01402000#32
  | .cNoneWr4040 _ _ _ => .w 0xF9FFC000#32 0x01404000#32
  | .cNoneWr4080 _ _ _ => .w 0xF9FF8000#32 0x01408000#32
  | .cNoneWr4100 _ _ _ => .w 0xF9FF0000#32 0x01410000#32
  | .cNoneWr4200 _ _ _ => .w 0xF9FE0000#32 0x01420000#32
  | .cNoneWr4400 _ _ _ => .w 0xF9FC0000#32 0x01440000#32
  | .cNoneWr4800 _ _ _ => .w 0xF9F80000#32 0x01480000#32
  | .cNoneWr5000 _ _ _ => .w 0xF9F00000#32 0x01500000#32
  | .cCartRd6000 _ _ => .w 0xF9E00000#32 0x00600000#32
  | .cCartRd8000 _ _ => .w 0xF9800000#32 0x00800000#32
  | .cCartWr6000 _ _ _ => .w 0xF9E00000#32 0x01600000#32
  | .cCartWr8000 _ _ _ => .w 0xF9800000#32 0x01800000#32
  | .pCartRd _ _ => .w 0xF9200000#32 0x10000000#32
  | .pCartWr _ _ _ => .w 0xF9200000#32 0x11000000#32
  | .pVramRd2000 _ _ => .w 0xF9300000#32 0x10200000#32
  | .pVramRd3000 _ _ => .w 0xF9380000#32 0x10300000#32
  | .pVramRd3800 _ _ => .w 0xF93C0000#32 0x10380000#32
  | .pVramRd3C00 _ _ => .w 0xF93E0000#32 0x103C0000#32
  | .pVramRd3E00 _ _ => .w 0xF93F0000#32 0x103E0000#32
  | .pVramWr2000 _ _ _ => .w 0xF9300000#32 0x11200000#32
  | .pVramWr3000 _ _ _ => .w 0xF9380000#32 0x11300000#32
  | .pVramWr3800 _ _ _ => .w 0xF93C0000#32 0x11380000#32
  | .pVramWr3C00 _ _ _ => .w 0xF93E0000#32 0x113C0000#32
  | .pVramWr3E00 _ _ _ => .w 0xF93F0000#32 0x113E0000#32
  | .pPalRd _ _ => .w 0xF93F0000#32 0x103F0000#32
  | .pPalWr _ _ _ => .w 0xF93F0000#32 0x113F0000#32
  | .irqReg _ => .w 0xFF000000#32 0x20000000#32
  | .irqPoll => .w 0xFF000000#32 0x21000000#32
  | .srcSet _ => .w 0xFF000000#32 0x22000000#32
  | .srcClr _ => .w 0xFF000000#32 0x23000000#32
  | .clkStart => .w 0xFF000000#32 0x30000000#32
  | .clkTick => .w 0xFF000000#32 0x31000000#32
  | .clkShutdown => .w 0xFF000000#32 0x32000000#32
  | .imgWrite => .w 0xFF000000#32 0x40000000#32
  | .imgRead => .w 0xFF000000#32 0x45000000#32
  | .ctrlWrite => .w 0xFF000000#32 0x46000000#32
  | .ctrlRead => .w 0xFF000000#32 0x43000000#32
  | .seqIdle => .s 0b11000#5 0b00000#5
  | .seqTop => .s 0b11111#5 0b01000#5
  | .seqCpu => .s 0b11111#5 0b01001#5
  | .seqApu => .s 0b11111#5 0b01010#5
  | .seqPpu0 => .s 0b11111#5 0b01011#5
  | .seqPpu1 => .s 0b11111#5 0b01100#5
  | .seqPpu2 => .s 0b11111#5 0b01101#5
  | .seqPace => .s 0b11111#5 0b01110#5
  | .seqDrain => .s 0b11000#5 0b10000#5
  | .seqHalt => .s 0b11000#5 0b11000#5

/-- R104: "a word `w` selects the row when `w & mask == match`"; a word selects rows of its own format only. -/
def TableRow.selects : TableRow → Code → Bool
  | .w mask pattern, .w word => word &&& mask == pattern
  | .s mask pattern, .s word => word &&& mask == pattern
  | .w _ _, .s _ => false
  | .s _ _, .w _ => false

/-- The operation this decoder reads from an operation word whose bits are `w`: a format `W` row has 32 bits, a
format `S` row 5 (8 in whole bytes, the upper three zero). None where the word is rejected. -/
def decodeTableWord (nbits w : Nat) : Option Instr :=
  if nbits = 32 then (decode (.w (BitVec.ofNat 32 w))).toOption
  else if nbits = 8 ∨ nbits = 5 then
    if w < 32 then (decode (.s (BitVec.ofNat 5 w))).toOption else none
  else none

end Sys2Proof
end

