-- ==== Sys2Proof/Machine/State.lean ====
section
/-! DEFINITION. The whole state of the BCC (R20), the inputs and parameters a step reads (R25, R31, R32, R43), the
model's own bookkeeping, the reasons a run can stop, and the state after power-on (R50). Plain data throughout. -/

namespace Sys2Proof.Machine

/-! ## Memory -/

/-- A byte store as a list of (cell, byte) pairs. A cell that is not listed has never been written; it reads as
`Config.memInit` of it (U1), log entry 8. -/
abbrev Memory := List Host.Cell

/-- The canonical form: cell numbers strictly rising. No entry can equal what an unlisted cell reads as, because an
unlisted cell has no value of its own, only a free one. -/
abbrev Memory.wf (m : Memory) : Prop := m.Pairwise fun x y => x.1 < y.1

/-! ## Names for what the registers hold -/

/-- `cstate` (R27, R185). -/
inductive CState where
  | idle
  | running
  | stopping
  | stopped
deriving DecidableEq, Repr

/-- `slot` (R27). `unused7` is the eighth value of the 3 bits, "never produced". -/
inductive Slot where
  | top
  | cpu
  | apu
  | ppu0
  | ppu1
  | ppu2
  | pace
  | unused7
deriving DecidableEq, Repr

/-- The two long-lived agents (R15). -/
inductive Agent where
  | emu
  | pres
deriving DecidableEq, Repr

/-- A lock: `FREE` = 0, or its holder, `EMU` = 1, `PRES` = 2 (R37). -/
inductive Lock where
  | free
  | emu
  | pres
deriving DecidableEq, Repr

/-- Which of the two locks (R37). -/
inductive LockId where
  | img
  | ctrl
deriving DecidableEq, Repr

/-- Owners of resolved addresses (R19, R93). -/
inductive Owner where
  | none
  | ram
  | ppureg
  | apu
  | ctrlDev
  | cart
  | vram
  | pal
deriving DecidableEq, Repr

/-- Device collaborators with a bus entry (R16). -/
inductive Device where
  | ppu
  | apu
  | ctrlDev
  | cart
deriving DecidableEq, Repr

/-- Events (R240): informational, no state depends on them. -/
inductive Event where
  /-- Code 1, by an access to an unmapped processor address, with the address. -/
  | unmapped (a : Addr)
  /-- Code 2, at power-on with `cart_ok == 0`. -/
  | constructFail
  /-- Code 3, by `SEQ.PACE`, with `elapsed - BUDGET_NS`. -/
  | overrun (late : Nat)
  /-- Code 4, by `refuse`, with the word. -/
  | opRefused (word : OpWord)
deriving DecidableEq, Repr

/-- What the BCC puts on its outputs (R26, R31, R44 to R47, R240), log entry 4. -/
inductive Output where
  /-- `sel` and `ra` of a router (R44). -/
  | route (sp : Space) (sel : Owner) (ra : Addr)
  /-- `rd`: the byte a bus read returns (R44). -/
  | rd (v : Byte)
  /-- A call of a device's read entry; the snapshot is given to the controller alone (R16, R130). -/
  | devRead (dev : Device) (ra : Addr) (org : Origin) (snap : Option Nat)
  /-- A call of a device's write entry (R16, R131). -/
  | devWrite (dev : Device) (ra : Addr) (org : Origin) (v : Byte) (snap : Option Nat)
  /-- The result of `IRQ.POLL` (R172). -/
  | irqLine (pending : Bool)
  /-- The result of `IMG.READ` (R221). -/
  | image (bytes : List Byte)
  /-- The result of `CTRL.READ` (R223). -/
  | ctrlValue (v : Nat)
  /-- `CPU.reset()`, the `cpu_reset` pulse (R46, R186). -/
  | cpuReset
  /-- `APU.play()` (R186). -/
  | apuPlay
  /-- `CPU.run_next(irq)`, the `cpu_step` pulse with `cpu_irq` (R46, R189). -/
  | runNext (irq : Bool)
  /-- `APU.clock()`, the `apu_tick` pulse (R46, R190). -/
  | apuTick
  /-- `PPU.clock()`, the `ppu_tick` pulse (R46, R191). -/
  | ppuTick
  /-- `sleep_ns` (R31, R194), exact. -/
  | sleep (ns : Nat)
  /-- An event (R240). -/
  | event (e : Event)
deriving DecidableEq, Repr

/-! ## The state -/

/-- R20, row by row; then the inputs, the parameters and the model's own bookkeeping. -/
structure State where
  /-- `RAM` (R22). -/
  ram : Memory
  /-- `VRAM` (R23). -/
  vram : Memory
  /-- `PAL` (R23). -/
  pal : Memory
  /-- `IMG` (R35). -/
  img : Memory
  /-- `SRC` (R24), in order of registration. -/
  src : List SrcId
  /-- `cstate` (R27). -/
  cstate : CState
  /-- `slot` (R27). -/
  slot : Slot
  /-- `batch_cnt` (R27). -/
  batchCnt : Nat
  /-- `apu_phase` (R28). -/
  apuPhase : Bool
  /-- `shutdown_latch` (R29). -/
  shutdownLatch : Bool
  /-- `audio_play` (R30). -/
  audioPlay : Bool
  /-- `t_prev` (R31). -/
  tPrev : Time
  /-- `n_cpu` (R33). -/
  nCpu : Nat
  /-- `n_ppu` (R33). -/
  nPpu : Nat
  /-- `n_apu` (R33). -/
  nApu : Nat
  /-- `CTRL` (R36), below `2 ^ CTRL_W`. -/
  ctrl : Nat
  /-- `img_lock` (R37). -/
  imgLock : Lock
  /-- `ctrl_lock` (R37). -/
  ctrlLock : Lock
  /-- Input: the sources whose `req(s)` is 1 (R25), strictly rising. -/
  req : List SrcId
  /-- Input: `cart_ok` (R32). -/
  cartOk : Bool
  /-- Input: operations presented and not yet performed, in the order they take effect (R17, R74). Log entry 1. -/
  inbox : List Request
  /-- Input: the operation being performed, with what its ports carry. Log entries 1 and 19. -/
  port : Request
  /-- The parameters (R7, R8, R43), constant in a run. Log entry 10. -/
  cfg : Params
  /-- The model's own: how many free inputs were drawn. Log entry 2. -/
  draws : Nat
  /-- The model's own: the outputs so far, oldest first. Log entry 4. -/
  trace : List Output
deriving DecidableEq, Repr

/-! ## Reasons to stop -/

/-- There are none: "No operation inside the steady-state loop is allowed to abort the process" (R203), no operation
faults (R240). -/
inductive Fault where
deriving DecidableEq, Repr

/-- Why a run is refused. -/
inductive Refusal where
  /-- Raised by an arm of `exec` whose operation has no meaning yet; safe. No arm raises it. -/
  | notModelled (mnemonic : String)
  /-- Raised by a bus operation while `cart_ok == 0`: "A model gives no meaning to a bus operation in that condition:
  `refuse` at the level of the run" (93_implementation_defined.md U18, R242). Safe: nothing is claimed of it. -/
  | noCartridge
deriving DecidableEq, Repr

/-! ## Power-on -/

/-- Inputs that are all zero or empty. -/
def quietInputs : Inputs :=
  { now := 0#64, wake := 0#64, devRd := 0#8, imgOff := 0, imgBytes := [], ctrlVal := 0, acts := .done,
    playActs := .done }

/-- Power-on (R50, R270) with given parameters and `cart_ok`; with `cart_ok == 0` the failure is reported once
(R240, R242). `CTRL` is 0: DESIGN CHOICE, log entry 9, unsafe. -/
def State.powerOn (cfg : Params) (cartOk : Bool) : State :=
  { ram := [], vram := [], pal := [], img := [], src := [],
    cstate := .idle, slot := .top, batchCnt := 0, apuPhase := false, shutdownLatch := false, audioPlay := false,
    tPrev := 0#64, nCpu := 0, nPpu := 0, nApu := 0, ctrl := 0, imgLock := .free, ctrlLock := .free,
    req := [], cartOk := cartOk, inbox := [], port := .tick quietInputs, cfg := cfg, draws := 0,
    trace := if cartOk then [] else [.event .constructFail] }

/-- The machine right after reset: power-on (R48, R50) with the parameters of `Params.default` and a cartridge that
loaded. DESIGN CHOICE, log entries 10 and 11, unsafe for a statement about this state alone. -/
def State.reset : State := State.powerOn Params.default true

end Sys2Proof.Machine
end

