-- ==== Sys2Proof/Machine/Flags.lean ====
section
/-! DEFINITION. The one-bit values of the BCC that are computed: the aggregate interrupt line (R26, R171) and the
request inputs it combines (R25). The stored flags (R39) are fields of State written by the operations R39 names. -/

namespace Sys2Proof.Machine

/-- `req(s)` (R25). -/
def requesting (s : State) (id : SrcId) : Bool := s.req.contains id

/-- `irq_pending == OR over s in SRC of req(s)`, 0 when `SRC` is empty (R171). -/
def irqPending (s : State) : Bool := s.src.any (requesting s)

/-- The requesting sources with `id` among them; the list stays strictly rising (R173). -/
def insertSource (id : SrcId) : List SrcId → List SrcId
  | [] => [id]
  | x :: xs => if id < x then id :: x :: xs else if id = x then x :: xs else x :: insertSource id xs

/-- The requesting sources without `id` (R174). -/
def removeSource (id : SrcId) (xs : List SrcId) : List SrcId := xs.filter fun x => x != id

end Sys2Proof.Machine
end

