-- ==== Sys2Proof/Machine/Operands.lean ====
section
/-! DEFINITION. The one operand form of the BCC: a 16-bit address resolved by mask to an owner and a resolved address
(R62, R63, R94), the cell an owner's resolved address names, and the codes of R93, R98. -/

namespace Sys2Proof.Machine

/-- `routeC` (R62). -/
def routeC (a : Addr) : Owner × Addr :=
  if a.toNat ≤ 0x1FFF then (.ram, a &&& Config.ramMask)
  else if a.toNat ≤ 0x3FFF then (.ppureg, Config.pregBase ||| (a &&& Config.pregMask))
  else if a.toNat ≤ 0x4013 then (.apu, a)
  else if a.toNat = 0x4014 then (.ppureg, a)
  else if a.toNat = 0x4015 then (.apu, a)
  else if a.toNat = 0x4016 then (.ctrlDev, a)
  else if a.toNat = 0x4017 then (.apu, a)
  else if a.toNat ≤ 0x5FFF then (.none, a)
  else (.cart, a)

/-- The first three arms of `routeP` (R63), for an address below `0x4000`. -/
def routeP0 (a : Addr) : Owner × Addr :=
  if a.toNat ≤ 0x1FFF then (.cart, a)
  else if a.toNat ≤ 0x3EFF then (.vram, a &&& Config.ntMask)
  else (.pal, a)

/-- `routeP` (R63): an address from `0x4000` up is folded once and resolved again. -/
def routeP (a : Addr) : Owner × Addr :=
  if a.toNat ≤ 0x3FFF then routeP0 a else routeP0 (a &&& Config.pspaceMask)

/-- The router of a space (R2). -/
def route : Space → Addr → Owner × Addr
  | .c, a => routeC a
  | .p, a => routeP a

/-- The cell a fold sends an offset to: the table's, else the offset itself (R8). -/
def foldCell (table : List (Nat × Nat)) (offset : Nat) : Nat := (table.lookup offset).getD offset

/-- `VRAM_FOLD(ra)`, default `ra & 0x0FFF` (R8, R94). -/
def vramCell (cfg : Params) (ra : Addr) : Nat := foldCell cfg.vramFold (ra &&& 0x0FFF#16).toNat

/-- `PAL_FOLD(ra)`, default `ra & 0x00FF` (R8, R94). -/
def palCell (cfg : Params) (ra : Addr) : Nat := foldCell cfg.palFold (ra &&& 0x00FF#16).toNat

/-- Owner codes on `sel[2:0]` (R93). -/
def ownerCode : Owner → BitVec 3
  | .none => 0
  | .ram => 1
  | .ppureg => 2
  | .apu => 3
  | .ctrlDev => 4
  | .cart => 5
  | .vram => 6
  | .pal => 7

/-- `cstate[1:0]` (R27). -/
def cstateCode : CState → BitVec 2
  | .idle => 0
  | .running => 1
  | .stopping => 2
  | .stopped => 3

/-- `slot[2:0]` (R27). -/
def slotCode : Slot → BitVec 3
  | .top => 0
  | .cpu => 1
  | .apu => 2
  | .ppu0 => 3
  | .ppu1 => 4
  | .ppu2 => 5
  | .pace => 6
  | .unused7 => 7

/-- The coordinator state of a code (R27). -/
def cstateOfCode (c : BitVec 2) : CState :=
  if c = 0#2 then .idle else if c = 1#2 then .running else if c = 2#2 then .stopping else .stopped

/-- The slot of a code (R27). -/
def slotOfCode (c : BitVec 3) : Slot :=
  if c = 0#3 then .top else if c = 1#3 then .cpu else if c = 2#3 then .apu else if c = 3#3 then .ppu0
  else if c = 4#3 then .ppu1 else if c = 5#3 then .ppu2 else if c = 6#3 then .pace else .unused7

end Sys2Proof.Machine
end

