-- ==== Sys2Proof/Machine/Ops.lean ====
section
/-! DEFINITION. The named operations the meanings share: cells, outputs, events and `refuse`, the locks, the accesses of
an owner, and what a collaborator does while one of its entries runs. An operation that may have to wait for a lock
answers `none` when it must (R226). -/

namespace Sys2Proof.Machine

/-! ## Cells of the stores -/

/-- The byte listed for a cell, if one was ever written. -/
def cellGet : Memory → Nat → Option Byte
  | [], _ => none
  | (k, v) :: m, i => if i = k then some v else cellGet m i

/-- List a byte for a cell, in its place. -/
def cellSet : Memory → Nat → Byte → Memory
  | [], i, v => [(i, v)]
  | (k, w) :: m, i, v =>
    if i < k then (i, v) :: (k, w) :: m else if i = k then (k, v) :: m else (k, w) :: cellSet m i v

/-- The cells of a store. -/
def cells (s : State) : Store → Memory
  | .ram => s.ram
  | .vram => s.vram
  | .pal => s.pal
  | .img => s.img

/-- Replace the cells of a store. -/
def withCells (st : Store) (m : Memory) (s : State) : State :=
  match st with
  | .ram => { s with ram := m }
  | .vram => { s with vram := m }
  | .pal => { s with pal := m }
  | .img => { s with img := m }

/-- A read of a cell: the value most recently written, and for a cell nothing has written the free value drawn at
power-on (R22, R23, R50, U1). -/
def readCell (st : Store) (i : Nat) (s : State) : Byte := (cellGet (cells s st) i).getD (Config.memInit st i)

/-- A write replaces the cell and changes nothing else (R22, R23). -/
def writeCell (st : Store) (i : Nat) (v : Byte) (s : State) : State := withCells st (cellSet (cells s st) i v) s

/-- `for i in 0 to len - 1: [off + i] <- bytes[i]` (R220). -/
def writeBytes (st : Store) : Nat → List Byte → State → State
  | _, [], s => s
  | off, b :: bs, s => writeBytes st (off + 1) bs (writeCell st off b s)

/-- `copy of IMG[0] to IMG[IMG_SIZE - 1]` (R221). -/
def imageOf (s : State) : List Byte := (List.range s.cfg.imgSize).map fun i => readCell .img i s

/-! ## Outputs, events, refuse -/

/-- Put a value on the outputs. -/
def emit (o : Output) (s : State) : State := { s with trace := s.trace ++ [o] }

/-- `raise` of R13 and R240: records an event; it never transfers control. -/
def raiseEvent (e : Event) (s : State) : State := emit (.event e) s

/-- `refuse` (R13, R244): the operation is not performed; nothing changes but the recorded `OP_REFUSED`. -/
def refuseOp (word : OpWord) (s : State) : State := raiseEvent (.opRefused word) s

/-! ## Locks (R226) -/

/-- The value of a lock. -/
def lockOf (l : LockId) (s : State) : Lock :=
  match l with
  | .img => s.imgLock
  | .ctrl => s.ctrlLock

/-- Set a lock. -/
def setLock (l : LockId) (k : Lock) (s : State) : State :=
  match l with
  | .img => { s with imgLock := k }
  | .ctrl => { s with ctrlLock := k }

/-- The lock value that says this agent holds it (R37). -/
def heldBy : Agent → Lock
  | .emu => .emu
  | .pres => .pres

/-- `ACQ(L, g)`: enabled only when `L == FREE`; `L <- g` (R226). -/
def acq (l : LockId) (g : Agent) (s : State) : Option State :=
  if lockOf l s = .free then some (setLock l (heldBy g) s) else none

/-- `REL(L, g)`: enabled only when `L == g`; `L <- FREE` (R226). -/
def rel (l : LockId) (g : Agent) (s : State) : Option State :=
  if lockOf l s = heldBy g then some (setLock l .free s) else none

/-- `ACQ`, one copy, `REL`, as one atomic operation (R225, R226). -/
def locked (l : LockId) (g : Agent) (copy : State → State) (s : State) : Option State :=
  (acq l g s).bind fun s1 => rel l g (copy s1)

/-- An agent whose `ACQ` is not enabled waits (R226): its operation stays presented and nothing else changes. Log
entry 6. -/
def wait (s : State) : State := { s with inbox := s.port :: s.inbox }

/-- The outcome of an operation that may have to wait. -/
def finish (r : Option State) (s : State) : Host.Outcome State Fault Refusal := .next (r.getD (wait s))

/-! ## Shared frame state (R220 to R223) -/

/-- `IMG.WRITE off, bytes` (R220): out of range is `refuse` (V10), and so is an empty sequence of bytes, log entry 14. -/
def imgWriteOp (off : Nat) (bytes : List Byte) (word : OpWord) (s : State) : Option State :=
  if bytes = [] ∨ s.cfg.imgSize < off + bytes.length then some (refuseOp word s)
  else locked .img .emu (writeBytes .img off bytes) s

/-- `IMG.READ` (R221). -/
def imgReadOp (s : State) : Option State := locked .img .pres (fun s1 => emit (.image (imageOf s1)) s1) s

/-- `CTRL.WRITE value` (R222); the data path has `CTRL_W` bits, log entry 17. -/
def ctrlWriteOp (v : Nat) (s : State) : Option State :=
  locked .ctrl .pres (fun s1 => { s1 with ctrl := v % 2 ^ s1.cfg.ctrlW }) s

/-- `CTRL.READ` (R223). -/
def ctrlReadOp (s : State) : Option State := locked .ctrl .emu (fun s1 => emit (.ctrlValue s1.ctrl) s1) s

/-! ## Interrupt sources (R170, R173, R174) and the shutdown signal (R197) -/

/-- `SRC <- SRC ++ [id]` (R170). -/
def irqRegOp (id : SrcId) (s : State) : State := { s with src := s.src ++ [id] }

/-- `req(id) <- 1` (R173). -/
def srcSetOp (id : SrcId) (s : State) : State := { s with req := insertSource id s.req }

/-- `req(id) <- 0` (R174). -/
def srcClrOp (id : SrcId) (s : State) : State := { s with req := removeSource id s.req }

/-- `shutdown_latch <- 1` (R197). -/
def shutdownOp (s : State) : State := { s with shutdownLatch := true }

/-! ## Accesses, by owner (R120, R121, R150, R151)

`run` is what the called device does while its entry runs (R16). -/

/-- `sel` and `ra` on the router's outputs (R44). -/
def routed (sp : Space) (o : Owner) (ra : Addr) (s : State) : State := emit (.route sp o ra) s

/-- A read of a store cell has no side effect (R70). -/
def readStore (st : Store) (i : Nat) (s : State) : State := emit (.rd (readCell st i s)) s

/-- `DevRead(dev, ra, org)` (R13, R16): one call of the device's entry; it returns the byte the device chose. -/
def devRead (run : State → Option State) (d : Device) (ra : Addr) (org : Origin) (snap : Option Nat) (ans : Byte)
    (s : State) : Option State :=
  (run (emit (.devRead d ra org snap) s)).map (emit (.rd ans))

/-- `DevWrite(dev, ra, org, v)` (R13, R16): one call of the device's entry. -/
def devWrite (run : State → Option State) (d : Device) (ra : Addr) (org : Origin) (v : Byte) (snap : Option Nat)
    (s : State) : Option State :=
  run (emit (.devWrite d ra org v snap) s)

/-- `snap <- CTRL.READ`, handed to what follows (R224). -/
def withSnapshot (k : Nat → State → Option State) (s : State) : Option State :=
  (ctrlReadOp s).bind fun s1 => k s1.ctrl s1

/-- A read of a resolved address, by owner: the arms of R120 and R150. -/
def readOwner (sp : Space) (o : Owner) (run : State → Option State) (ra : Addr) (org : Origin) (ans : Byte)
    (s : State) : Option State :=
  let s0 := routed sp o ra s
  match o with
  | .none => some (emit (.rd Config.unmappedRead) (raiseEvent (.unmapped ra) s0))
  | .ram => some (readStore .ram ra.toNat s0)
  | .vram => some (readStore .vram (vramCell s.cfg ra) s0)
  | .pal => some (readStore .pal (palCell s.cfg ra) s0)
  | .ppureg => devRead run .ppu ra org none ans s0
  | .apu => devRead run .apu ra org none ans s0
  | .cart => devRead run .cart ra org none ans s0
  | .ctrlDev => withSnapshot (fun snap => devRead run .ctrlDev ra org (some snap) ans) s0

/-- A write of a resolved address, by owner: the arms of R121 and R151. -/
def writeOwner (sp : Space) (o : Owner) (run : State → Option State) (ra : Addr) (org : Origin) (v : Byte)
    (s : State) : Option State :=
  let s0 := routed sp o ra s
  match o with
  | .none => some (raiseEvent (.unmapped ra) s0)
  | .ram => some (writeCell .ram ra.toNat v s0)
  | .vram => some (writeCell .vram (vramCell s.cfg ra) v s0)
  | .pal => some (writeCell .pal (palCell s.cfg ra) v s0)
  | .ppureg => devWrite run .ppu ra org v none s0
  | .apu => devWrite run .apu ra org v none s0
  | .cart => devWrite run .cart ra org v none s0
  | .ctrlDev => withSnapshot (fun snap => devWrite run .ctrlDev ra org v (some snap)) s0

/-- `MemRead(space, a, org)`, the generic entry points `C.RD` and `P.RD` (R120, R150). -/
def memRead (sp : Space) (run : State → Option State) (a : Addr) (org : Origin) (ans : Byte) (s : State) :
    Option State :=
  readOwner sp (route sp a).1 run (route sp a).2 org ans s

/-- `MemWrite(space, a, org, v)`, the generic entry points `C.WR` and `P.WR` (R121, R151). -/
def memWrite (sp : Space) (run : State → Option State) (a : Addr) (org : Origin) (v : Byte) (s : State) :
    Option State :=
  writeOwner sp (route sp a).1 run (route sp a).2 org v s

/-! ## What happens while a collaborator's entry runs (R16, log entry 3) -/

/-- The unit an access of this owner mutates that "its own `clock()`" mutates too, "one at a time, never both at once"
(R277): the picture unit or the audio unit. -/
def exclusiveUnit : Owner → Option Device
  | .ppureg => some .ppu
  | .apu => some .apu
  | .none => none
  | .ram => none
  | .ctrlDev => none
  | .cart => none
  | .vram => none
  | .pal => none

/-- The units being mutated while an access of this owner is open, given those being mutated when it starts (R277). -/
def entering (o : Owner) (opened : List Device) : List Device := (exclusiveUnit o).toList ++ opened

/-- An access of this owner mutates no unit that is being mutated already (R277). -/
def mayEnter (o : Owner) (opened : List Device) : Bool := (exclusiveUnit o).all fun d => !opened.contains d

/-- One operation of the activity, while the units `opened` are being mutated; `run` is what the device it calls does,
given the units being mutated then. A bus operation is routed as any other. With `cart_ok == 0` "no bus operation is ever
issued" (R242), and none enters a unit that is being mutated (R277): a list that holds such a one describes no run, and
it is left out. Log entry 25. -/
def performAct (act : Act) (opened : List Device) (run : List Device → State → Option State) (s : State) :
    Option State :=
  match act with
  | .read sp a org ans =>
    if s.cartOk && mayEnter (route sp a).1 opened then memRead sp (run (entering (route sp a).1 opened)) a org ans s
    else some s
  | .write sp a org v =>
    if s.cartOk && mayEnter (route sp a).1 opened then memWrite sp (run (entering (route sp a).1 opened)) a org v s
    else some s
  | .irqReg id => some (irqRegOp id s)
  | .srcSet id => some (srcSetOp id s)
  | .srcClr id => some (srcClrOp id s)
  | .imgWrite off bytes => imgWriteOp off bytes 0x40000000#32 s
  | .ctrlRead => ctrlReadOp s
  | .imgRead => imgReadOp s
  | .ctrlWrite v => ctrlWriteOp v s
  | .shutdown => some (shutdownOp s)

/-- The operations one after another, each finished, with what the device it calls does, before the next starts
(R12, R69, R75). What that device itself issues (R16, D32) runs inside its access, before the access returns, also where
it enters the same router again, which R69 and R75 read word for word exclude: DESIGN CHOICE, log entry 24, safe. It
never enters a unit among `opened`, those being mutated (R277). -/
def runActs : Activity → List Device → State → Option State
  | .done, _, s => some s
  | .op act inner next, opened, s => (performAct act opened (runActs inner) s).bind (runActs next opened)

/-- What the collaborator called by the operation on the port does, with the units that this call mutates (R277); for a
bus operation, inside that operation's own access (log entry 24). -/
def entry (opened : List Device) (s : State) : State → Option State := runActs s.port.inputs.acts opened

/-- What the device called by a bus operation of this owner does. -/
def accessEntry (o : Owner) (s : State) : State → Option State := entry (entering o []) s

/-- What `APU.play()`, called by the `CLK.START` on the port, does (R186). R277 names a router call and `clock()`, so
`play()` closes no unit to accesses: log entry 25. -/
def playEntry (s : State) : State → Option State := runActs s.port.inputs.playActs []

/-! ## A bus operation presented on the ports -/

/-- Bus operations have a meaning only with a cartridge (R242, U18; log entry 11). -/
def bus (r : Option State) (s : State) : Host.Outcome State Fault Refusal :=
  if s.cartOk then finish r s else .refused .noCartridge

/-- A decoded read: owner and resolved address are the row's. -/
def busRead (sp : Space) (o : Owner) (ra : Addr) (org : Origin) (s : State) : Host.Outcome State Fault Refusal :=
  bus (readOwner sp o (accessEntry o s) ra org s.port.inputs.devRd s) s

/-- A decoded write. -/
def busWrite (sp : Space) (o : Owner) (ra : Addr) (org : Origin) (v : Byte) (s : State) :
    Host.Outcome State Fault Refusal :=
  bus (writeOwner sp o (accessEntry o s) ra org v s) s

end Sys2Proof.Machine
end

