-- ==== Sys2Proof/Machine/Aggregator.lean ====
section
/-! DEFINITION. The Interrupt Aggregator `IA` (R170 to R174). -/

namespace Sys2Proof.Machine

/-- `IRQ.REG id` (R170): in every `cstate`, a duplicate allowed. -/
def execIrqReg (id : SrcId) (s : State) : Host.Outcome State Fault Refusal := .next (irqRegOp id s)

/-- `IRQ.POLL` (R172): returns `irq_pending`; it clears nothing. -/
def execIrqPoll (s : State) : Host.Outcome State Fault Refusal := .next (emit (.irqLine (irqPending s)) s)

/-- `SRC.SET id` (R173). -/
def execSrcSet (id : SrcId) (s : State) : Host.Outcome State Fault Refusal := .next (srcSetOp id s)

/-- `SRC.CLR id` (R174). -/
def execSrcClr (id : SrcId) (s : State) : Host.Outcome State Fault Refusal := .next (srcClrOp id s)

end Sys2Proof.Machine
end

