-- ==== Sys2Proof/Machine/Coordinator.lean ====
section
/-! DEFINITION. The Clock Coordinator `CC`: the micro-operations of the sequencer (R188 to R198) and the three
requested operations (R186, R187, R197). -/

namespace Sys2Proof.Machine

/-! ## The micro-operations -/

/-- `SEQ.IDLE`: nothing happens (R198). -/
def idleOp (s : State) : State := s

/-- `SEQ.HALT`: nothing happens, for ever (R198). -/
def haltOp (s : State) : State := s

/-- `SEQ.TOP`: the shutdown poll at the top of a batch (R188). -/
def topOp (s : State) : State :=
  if s.shutdownLatch then { s with cstate := .stopping } else { s with slot := .cpu }

/-- `SEQ.CPU`: sample the line, one processor step (R189). -/
def cpuOp (s : State) : Option State :=
  (entry [] s (emit (.runNext (irqPending s)) s)).map fun t => { t with nCpu := s.nCpu + 1, slot := .apu }

/-- `SEQ.APU`: tick the audio unit, which no access enters meanwhile (R277), if the flag is set; flip the flag (R190). -/
def apuOp (s : State) : Option State :=
  if s.apuPhase then
    (entry [.apu] s (emit .apuTick s)).map fun t => { t with nApu := s.nApu + 1, apuPhase := false, slot := .ppu0 }
  else some { s with apuPhase := true, slot := .ppu0 }

/-- `tick(PPU); n_ppu <- n_ppu + 1` (R191); no access enters the picture unit meanwhile (R277). -/
def tickPpu (s : State) : Option State :=
  (entry [.ppu] s (emit .ppuTick s)).map fun t => { t with nPpu := s.nPpu + 1 }

/-- `SEQ.PPU0` (R191). -/
def ppu0Op (s : State) : Option State := (tickPpu s).map fun t => { t with slot := .ppu1 }

/-- `SEQ.PPU1` (R192). -/
def ppu1Op (s : State) : Option State := (tickPpu s).map fun t => { t with slot := .ppu2 }

/-- `SEQ.PPU2`: the third picture tick and the end of the iteration (R193). -/
def ppu2Op (s : State) : Option State :=
  (tickPpu s).map fun t =>
    { t with batchCnt := s.batchCnt + 1, slot := if s.batchCnt + 1 = s.cfg.batch then .pace else .cpu }

/-- The later of two times: `now` is non-decreasing and `wake >= now` (R31, R195), log entry 12. -/
def notBefore (floor t : Time) : Time := if t < floor then floor else t

/-- `now`, as `SEQ.PACE` samples it (R194): not before `t_prev`, the last time sampled. -/
def paceNow (s : State) : Time := notBefore s.tPrev s.port.inputs.now

/-- `wake`, as `SEQ.PACE` samples it (R195): not before `now`. -/
def paceWake (s : State) : Time := notBefore (paceNow s) s.port.inputs.wake

/-- `elapsed <- now - t_prev` (R194). -/
def elapsed (s : State) : Nat := (paceNow s - s.tPrev).toNat

/-- The outputs of `SEQ.PACE`'s first half (R194). -/
def pacing (s : State) : State :=
  if elapsed s < s.cfg.budgetNs then emit (.sleep (s.cfg.budgetNs - elapsed s)) s
  else raiseEvent (.overrun (elapsed s - s.cfg.budgetNs)) (emit (.sleep 0) s)

/-- `SEQ.PACE`: the pacing check, the sleep, the start of the next batch (R194, R195). -/
def paceOp (s : State) : State := { pacing s with tPrev := paceWake s, batchCnt := 0, slot := .top }

/-- `SEQ.DRAIN`: release the audio output, stop (R196). -/
def drainOp (s : State) : State := { s with audioPlay := false, cstate := .stopped }

/-- The sequencer word `S = {cstate, slot}` of a state (R98). -/
def positionWord (s : State) : SeqWord := seqWord (cstateCode s.cstate) (slotCode s.slot)

/-- The micro-operation the position selects (R98, R187); `S == 01111` is `refuse` (R198). -/
def microOp (s : State) : Option State :=
  match s.cstate, s.slot with
  | .idle, _ => some (idleOp s)
  | .running, .top => some (topOp s)
  | .running, .cpu => cpuOp s
  | .running, .apu => apuOp s
  | .running, .ppu0 => ppu0Op s
  | .running, .ppu1 => ppu1Op s
  | .running, .ppu2 => ppu2Op s
  | .running, .pace => some (paceOp s)
  | .running, .unused7 => some (refuseOp s.port.opWord s)
  | .stopping, _ => some (drainOp s)
  | .stopped, _ => some (haltOp s)

/-- `CPU.reset()`, then, when it has returned, `APU.play()` (R12, R186). -/
def resetThenPlay (s : State) : Option State :=
  (entry [] s (emit .cpuReset s)).bind fun t => playEntry s (emit .apuPlay t)

/-- `CLK.START` (R186): has effect only in `Idle` with `cart_ok == 1`. -/
def startOp (s : State) : Option State :=
  if s.cstate = .idle ∧ s.cartOk = true then
    (resetThenPlay s).map fun t =>
      { t with audioPlay := true, tPrev := s.port.inputs.now, batchCnt := 0, slot := .top, cstate := .running }
  else some s

/-! ## The meanings -/

/-- `CLK.START` (R186). -/
def execClkStart (s : State) : Host.Outcome State Fault Refusal := finish (startOp s) s

/-- `CLK.TICK` (R187). -/
def execClkTick (s : State) : Host.Outcome State Fault Refusal := finish (microOp s) s

/-- `CLK.SHUTDOWN` (R197). -/
def execClkShutdown (s : State) : Host.Outcome State Fault Refusal := .next (shutdownOp s)

/-- `SEQ.IDLE` (R198). -/
def execSeqIdle (s : State) : Host.Outcome State Fault Refusal := .next (idleOp s)

/-- `SEQ.TOP` (R188). -/
def execSeqTop (s : State) : Host.Outcome State Fault Refusal := .next (topOp s)

/-- `SEQ.CPU` (R189). -/
def execSeqCpu (s : State) : Host.Outcome State Fault Refusal := finish (cpuOp s) s

/-- `SEQ.APU` (R190). -/
def execSeqApu (s : State) : Host.Outcome State Fault Refusal := finish (apuOp s) s

/-- `SEQ.PPU0` (R191). -/
def execSeqPpu0 (s : State) : Host.Outcome State Fault Refusal := finish (ppu0Op s) s

/-- `SEQ.PPU1` (R192). -/
def execSeqPpu1 (s : State) : Host.Outcome State Fault Refusal := finish (ppu1Op s) s

/-- `SEQ.PPU2` (R193). -/
def execSeqPpu2 (s : State) : Host.Outcome State Fault Refusal := finish (ppu2Op s) s

/-- `SEQ.PACE` (R194, R195). -/
def execSeqPace (s : State) : Host.Outcome State Fault Refusal := .next (paceOp s)

/-- `SEQ.DRAIN` (R196). -/
def execSeqDrain (s : State) : Host.Outcome State Fault Refusal := .next (drainOp s)

/-- `SEQ.HALT` (R198). -/
def execSeqHalt (s : State) : Host.Outcome State Fault Refusal := .next (haltOp s)

end Sys2Proof.Machine
end

