-- ==== Sys2Proof/Machine/CpuRouter.lean ====
section
/-! DEFINITION. The processor-space router `ARC` (R122 to R135): one meaning per row of the table, over the shared accesses by owner. -/

namespace Sys2Proof.Machine

/-- `C.RAM.RD` (R122): `return RAM[a & 0x07FF]`. -/
def execCRamRd (org : Origin) (a : Addr) (s : State) :
    Host.Outcome State Fault Refusal :=
  busRead .c .ram (a &&& Config.ramMask) org s

/-- `C.RAM.WR` (R123): `RAM[a & 0x07FF] <- v`. -/
def execCRamWr (org : Origin) (a : Addr) (v : Byte) (s : State) :
    Host.Outcome State Fault Refusal :=
  busWrite .c .ram (a &&& Config.ramMask) org v s

/-- `C.PPUREG.RD` (R124): `return DevRead(PPU, 0x2000 | (a & 0x0007), org)`. -/
def execCPpuregRd (org : Origin) (a : Addr) (s : State) :
    Host.Outcome State Fault Refusal :=
  busRead .c .ppureg (Config.pregBase ||| (a &&& Config.pregMask)) org s

/-- `C.PPUREG.WR` (R125): `DevWrite(PPU, 0x2000 | (a & 0x0007), org, v)`. -/
def execCPpuregWr (org : Origin) (a : Addr) (v : Byte) (s : State) :
    Host.Outcome State Fault Refusal :=
  busWrite .c .ppureg (Config.pregBase ||| (a &&& Config.pregMask)) org v s

/-- `C.APU.RD@4000-400F` (R126): `return DevRead(APU, a, org)`. -/
def execCApuRd4000 (org : Origin) (a : Addr) (s : State) :
    Host.Outcome State Fault Refusal :=
  busRead .c .apu a org s

/-- `C.APU.RD@4010-4013` (R126): `return DevRead(APU, a, org)`. -/
def execCApuRd4010 (org : Origin) (a : Addr) (s : State) :
    Host.Outcome State Fault Refusal :=
  busRead .c .apu a org s

/-- `C.APU.RD@4015` (R126): `return DevRead(APU, a, org)`. -/
def execCApuRd4015 (org : Origin) (s : State) :
    Host.Outcome State Fault Refusal :=
  busRead .c .apu 0x4015#16 org s

/-- `C.APU.RD@4017` (R126): `return DevRead(APU, a, org)`. -/
def execCApuRd4017 (org : Origin) (s : State) :
    Host.Outcome State Fault Refusal :=
  busRead .c .apu 0x4017#16 org s

/-- `C.APU.WR@4000-400F` (R127): `DevWrite(APU, a, org, v)`. -/
def execCApuWr4000 (org : Origin) (a : Addr) (v : Byte) (s : State) :
    Host.Outcome State Fault Refusal :=
  busWrite .c .apu a org v s

/-- `C.APU.WR@4010-4013` (R127): `DevWrite(APU, a, org, v)`. -/
def execCApuWr4010 (org : Origin) (a : Addr) (v : Byte) (s : State) :
    Host.Outcome State Fault Refusal :=
  busWrite .c .apu a org v s

/-- `C.APU.WR@4015` (R127): `DevWrite(APU, a, org, v)`. -/
def execCApuWr4015 (org : Origin) (v : Byte) (s : State) :
    Host.Outcome State Fault Refusal :=
  busWrite .c .apu 0x4015#16 org v s

/-- `C.APU.WR@4017` (R127): `DevWrite(APU, a, org, v)`. -/
def execCApuWr4017 (org : Origin) (v : Byte) (s : State) :
    Host.Outcome State Fault Refusal :=
  busWrite .c .apu 0x4017#16 org v s

/-- `C.OAMDMA.RD` (R128): `return DevRead(PPU, 0x4014, org)`. -/
def execCOamdmaRd (org : Origin) (s : State) :
    Host.Outcome State Fault Refusal :=
  busRead .c .ppureg 0x4014#16 org s

/-- `C.OAMDMA.WR` (R129): `DevWrite(PPU, 0x4014, org, v)`; the transfer it triggers is the picture unit's. -/
def execCOamdmaWr (org : Origin) (v : Byte) (s : State) :
    Host.Outcome State Fault Refusal :=
  busWrite .c .ppureg 0x4014#16 org v s

/-- `C.CTRL.RD` (R130): `snap <- CTRL.READ; return DevRead(CTRL_DEV, 0x4016, org) given snap`. -/
def execCCtrlRd (org : Origin) (s : State) :
    Host.Outcome State Fault Refusal :=
  busRead .c .ctrlDev 0x4016#16 org s

/-- `C.CTRL.WR` (R131): `snap <- CTRL.READ; DevWrite(CTRL_DEV, 0x4016, org, v) given snap`. -/
def execCCtrlWr (org : Origin) (v : Byte) (s : State) :
    Host.Outcome State Fault Refusal :=
  busWrite .c .ctrlDev 0x4016#16 org v s

/-- `C.NONE.RD@4018-401F` (R132): `return 0x00`. -/
def execCNoneRd4018 (org : Origin) (a : Addr) (s : State) :
    Host.Outcome State Fault Refusal :=
  busRead .c .none a org s

/-- `C.NONE.RD@4020-403F` (R132): `return 0x00`. -/
def execCNoneRd4020 (org : Origin) (a : Addr) (s : State) :
    Host.Outcome State Fault Refusal :=
  busRead .c .none a org s

/-- `C.NONE.RD@4040-407F` (R132): `return 0x00`. -/
def execCNoneRd4040 (org : Origin) (a : Addr) (s : State) :
    Host.Outcome State Fault Refusal :=
  busRead .c .none a org s

/-- `C.NONE.RD@4080-40FF` (R132): `return 0x00`. -/
def execCNoneRd4080 (org : Origin) (a : Addr) (s : State) :
    Host.Outcome State Fault Refusal :=
  busRead .c .none a org s

/-- `C.NONE.RD@4100-41FF` (R132): `return 0x00`. -/
def execCNoneRd4100 (org : Origin) (a : Addr) (s : State) :
    Host.Outcome State Fault Refusal :=
  busRead .c .none a org s

/-- `C.NONE.RD@4200-43FF` (R132): `return 0x00`. -/
def execCNoneRd4200 (org : Origin) (a : Addr) (s : State) :
    Host.Outcome State Fault Refusal :=
  busRead .c .none a org s

/-- `C.NONE.RD@4400-47FF` (R132): `return 0x00`. -/
def execCNoneRd4400 (org : Origin) (a : Addr) (s : State) :
    Host.Outcome State Fault Refusal :=
  busRead .c .none a org s

/-- `C.NONE.RD@4800-4FFF` (R132): `return 0x00`. -/
def execCNoneRd4800 (org : Origin) (a : Addr) (s : State) :
    Host.Outcome State Fault Refusal :=
  busRead .c .none a org s

/-- `C.NONE.RD@5000-5FFF` (R132): `return 0x00`. -/
def execCNoneRd5000 (org : Origin) (a : Addr) (s : State) :
    Host.Outcome State Fault Refusal :=
  busRead .c .none a org s

/-- `C.NONE.WR@4018-401F` (R133): nothing; the byte is discarded. -/
def execCNoneWr4018 (org : Origin) (a : Addr) (v : Byte) (s : State) :
    Host.Outcome State Fault Refusal :=
  busWrite .c .none a org v s

/-- `C.NONE.WR@4020-403F` (R133): nothing; the byte is discarded. -/
def execCNoneWr4020 (org : Origin) (a : Addr) (v : Byte) (s : State) :
    Host.Outcome State Fault Refusal :=
  busWrite .c .none a org v s

/-- `C.NONE.WR@4040-407F` (R133): nothing; the byte is discarded. -/
def execCNoneWr4040 (org : Origin) (a : Addr) (v : Byte) (s : State) :
    Host.Outcome State Fault Refusal :=
  busWrite .c .none a org v s

/-- `C.NONE.WR@4080-40FF` (R133): nothing; the byte is discarded. -/
def execCNoneWr4080 (org : Origin) (a : Addr) (v : Byte) (s : State) :
    Host.Outcome State Fault Refusal :=
  busWrite .c .none a org v s

/-- `C.NONE.WR@4100-41FF` (R133): nothing; the byte is discarded. -/
def execCNoneWr4100 (org : Origin) (a : Addr) (v : Byte) (s : State) :
    Host.Outcome State Fault Refusal :=
  busWrite .c .none a org v s

/-- `C.NONE.WR@4200-43FF` (R133): nothing; the byte is discarded. -/
def execCNoneWr4200 (org : Origin) (a : Addr) (v : Byte) (s : State) :
    Host.Outcome State Fault Refusal :=
  busWrite .c .none a org v s

/-- `C.NONE.WR@4400-47FF` (R133): nothing; the byte is discarded. -/
def execCNoneWr4400 (org : Origin) (a : Addr) (v : Byte) (s : State) :
    Host.Outcome State Fault Refusal :=
  busWrite .c .none a org v s

/-- `C.NONE.WR@4800-4FFF` (R133): nothing; the byte is discarded. -/
def execCNoneWr4800 (org : Origin) (a : Addr) (v : Byte) (s : State) :
    Host.Outcome State Fault Refusal :=
  busWrite .c .none a org v s

/-- `C.NONE.WR@5000-5FFF` (R133): nothing; the byte is discarded. -/
def execCNoneWr5000 (org : Origin) (a : Addr) (v : Byte) (s : State) :
    Host.Outcome State Fault Refusal :=
  busWrite .c .none a org v s

/-- `C.CART.RD@6000-7FFF` (R134): `return DevRead(CART, a, org)`. -/
def execCCartRd6000 (org : Origin) (a : Addr) (s : State) :
    Host.Outcome State Fault Refusal :=
  busRead .c .cart a org s

/-- `C.CART.RD@8000-FFFF` (R134): `return DevRead(CART, a, org)`. -/
def execCCartRd8000 (org : Origin) (a : Addr) (s : State) :
    Host.Outcome State Fault Refusal :=
  busRead .c .cart a org s

/-- `C.CART.WR@6000-7FFF` (R135): `DevWrite(CART, a, org, v)`. -/
def execCCartWr6000 (org : Origin) (a : Addr) (v : Byte) (s : State) :
    Host.Outcome State Fault Refusal :=
  busWrite .c .cart a org v s

/-- `C.CART.WR@8000-FFFF` (R135): `DevWrite(CART, a, org, v)`. -/
def execCCartWr8000 (org : Origin) (a : Addr) (v : Byte) (s : State) :
    Host.Outcome State Fault Refusal :=
  busWrite .c .cart a org v s

end Sys2Proof.Machine
end

