-- ==== Sys2Proof/Machine/FrameState.lean ====
section
/-! DEFINITION. The Shared Frame State `SFS` (R220 to R223): each operation is one atomic copy under its lock. -/

namespace Sys2Proof.Machine

/-- `IMG.WRITE off, bytes` (R220); the payload is on the data path (R47, R96). -/
def execImgWrite (s : State) : Host.Outcome State Fault Refusal :=
  finish (imgWriteOp s.port.inputs.imgOff s.port.inputs.imgBytes s.port.opWord s) s

/-- `IMG.READ` (R221). -/
def execImgRead (s : State) : Host.Outcome State Fault Refusal := finish (imgReadOp s) s

/-- `CTRL.WRITE value` (R222); the value is on the data path. -/
def execCtrlWrite (s : State) : Host.Outcome State Fault Refusal := finish (ctrlWriteOp s.port.inputs.ctrlVal s) s

/-- `CTRL.READ` (R223). -/
def execCtrlRead (s : State) : Host.Outcome State Fault Refusal := finish (ctrlReadOp s) s

end Sys2Proof.Machine
end

