-- ==== Sys2Proof/Machine/PpuRouter.lean ====
section
/-! DEFINITION. The picture-unit-space router `ARP` (R152 to R158): one meaning per row of the table, over the shared accesses by owner. -/

namespace Sys2Proof.Machine

/-- `P.CART.RD` (R152): `return DevRead(CART, a & 0x3FFF, org)`. -/
def execPCartRd (org : Origin) (a : Addr) (s : State) :
    Host.Outcome State Fault Refusal :=
  busRead .p .cart (a &&& Config.pspaceMask) org s

/-- `P.CART.WR` (R153): `DevWrite(CART, a & 0x3FFF, org, v)`. -/
def execPCartWr (org : Origin) (a : Addr) (v : Byte) (s : State) :
    Host.Outcome State Fault Refusal :=
  busWrite .p .cart (a &&& Config.pspaceMask) org v s

/-- `P.VRAM.RD@2000-2FFF` (R154): `return VRAM[VRAM_FOLD((a & 0x3FFF) & 0x2FFF)]`. -/
def execPVramRd2000 (org : Origin) (a : Addr) (s : State) :
    Host.Outcome State Fault Refusal :=
  busRead .p .vram ((a &&& Config.pspaceMask) &&& Config.ntMask) org s

/-- `P.VRAM.RD@3000-37FF` (R154): `return VRAM[VRAM_FOLD((a & 0x3FFF) & 0x2FFF)]`. -/
def execPVramRd3000 (org : Origin) (a : Addr) (s : State) :
    Host.Outcome State Fault Refusal :=
  busRead .p .vram ((a &&& Config.pspaceMask) &&& Config.ntMask) org s

/-- `P.VRAM.RD@3800-3BFF` (R154): `return VRAM[VRAM_FOLD((a & 0x3FFF) & 0x2FFF)]`. -/
def execPVramRd3800 (org : Origin) (a : Addr) (s : State) :
    Host.Outcome State Fault Refusal :=
  busRead .p .vram ((a &&& Config.pspaceMask) &&& Config.ntMask) org s

/-- `P.VRAM.RD@3C00-3DFF` (R154): `return VRAM[VRAM_FOLD((a & 0x3FFF) & 0x2FFF)]`. -/
def execPVramRd3C00 (org : Origin) (a : Addr) (s : State) :
    Host.Outcome State Fault Refusal :=
  busRead .p .vram ((a &&& Config.pspaceMask) &&& Config.ntMask) org s

/-- `P.VRAM.RD@3E00-3EFF` (R154): `return VRAM[VRAM_FOLD((a & 0x3FFF) & 0x2FFF)]`. -/
def execPVramRd3E00 (org : Origin) (a : Addr) (s : State) :
    Host.Outcome State Fault Refusal :=
  busRead .p .vram ((a &&& Config.pspaceMask) &&& Config.ntMask) org s

/-- `P.VRAM.WR@2000-2FFF` (R155): `VRAM[VRAM_FOLD((a & 0x3FFF) & 0x2FFF)] <- v`. -/
def execPVramWr2000 (org : Origin) (a : Addr) (v : Byte) (s : State) :
    Host.Outcome State Fault Refusal :=
  busWrite .p .vram ((a &&& Config.pspaceMask) &&& Config.ntMask) org v s

/-- `P.VRAM.WR@3000-37FF` (R155): `VRAM[VRAM_FOLD((a & 0x3FFF) & 0x2FFF)] <- v`. -/
def execPVramWr3000 (org : Origin) (a : Addr) (v : Byte) (s : State) :
    Host.Outcome State Fault Refusal :=
  busWrite .p .vram ((a &&& Config.pspaceMask) &&& Config.ntMask) org v s

/-- `P.VRAM.WR@3800-3BFF` (R155): `VRAM[VRAM_FOLD((a & 0x3FFF) & 0x2FFF)] <- v`. -/
def execPVramWr3800 (org : Origin) (a : Addr) (v : Byte) (s : State) :
    Host.Outcome State Fault Refusal :=
  busWrite .p .vram ((a &&& Config.pspaceMask) &&& Config.ntMask) org v s

/-- `P.VRAM.WR@3C00-3DFF` (R155): `VRAM[VRAM_FOLD((a & 0x3FFF) & 0x2FFF)] <- v`. -/
def execPVramWr3C00 (org : Origin) (a : Addr) (v : Byte) (s : State) :
    Host.Outcome State Fault Refusal :=
  busWrite .p .vram ((a &&& Config.pspaceMask) &&& Config.ntMask) org v s

/-- `P.VRAM.WR@3E00-3EFF` (R155): `VRAM[VRAM_FOLD((a & 0x3FFF) & 0x2FFF)] <- v`. -/
def execPVramWr3E00 (org : Origin) (a : Addr) (v : Byte) (s : State) :
    Host.Outcome State Fault Refusal :=
  busWrite .p .vram ((a &&& Config.pspaceMask) &&& Config.ntMask) org v s

/-- `P.PAL.RD` (R156): `return PAL[PAL_FOLD(a & 0x3FFF)]`. -/
def execPPalRd (org : Origin) (a : Addr) (s : State) :
    Host.Outcome State Fault Refusal :=
  busRead .p .pal (a &&& Config.pspaceMask) org s

/-- `P.PAL.WR` (R157): `PAL[PAL_FOLD(a & 0x3FFF)] <- v`. -/
def execPPalWr (org : Origin) (a : Addr) (v : Byte) (s : State) :
    Host.Outcome State Fault Refusal :=
  busWrite .p .pal (a &&& Config.pspaceMask) org v s

end Sys2Proof.Machine
end

