-- ==== Sys2Proof/Machine/Dispatch.lean ====
section
/-! DEFINITION. What each operation does: one arm per row of the table, each a call of its own meaning. -/

namespace Sys2Proof.Machine

def exec (i : Instr) (s : State) : Host.Outcome State Fault Refusal :=
  match i with
  | .cRamRd org a => Sys2Proof.Machine.execCRamRd org a s
  | .cRamWr org a v => Sys2Proof.Machine.execCRamWr org a v s
  | .cPpuregRd org a => Sys2Proof.Machine.execCPpuregRd org a s
  | .cPpuregWr org a v => Sys2Proof.Machine.execCPpuregWr org a v s
  | .cApuRd4000 org a => Sys2Proof.Machine.execCApuRd4000 org a s
  | .cApuRd4010 org a => Sys2Proof.Machine.execCApuRd4010 org a s
  | .cApuRd4015 org => Sys2Proof.Machine.execCApuRd4015 org s
  | .cApuRd4017 org => Sys2Proof.Machine.execCApuRd4017 org s
  | .cApuWr4000 org a v => Sys2Proof.Machine.execCApuWr4000 org a v s
  | .cApuWr4010 org a v => Sys2Proof.Machine.execCApuWr4010 org a v s
  | .cApuWr4015 org v => Sys2Proof.Machine.execCApuWr4015 org v s
  | .cApuWr4017 org v => Sys2Proof.Machine.execCApuWr4017 org v s
  | .cOamdmaRd org => Sys2Proof.Machine.execCOamdmaRd org s
  | .cOamdmaWr org v => Sys2Proof.Machine.execCOamdmaWr org v s
  | .cCtrlRd org => Sys2Proof.Machine.execCCtrlRd org s
  | .cCtrlWr org v => Sys2Proof.Machine.execCCtrlWr org v s
  | .cNoneRd4018 org a => Sys2Proof.Machine.execCNoneRd4018 org a s
  | .cNoneRd4020 org a => Sys2Proof.Machine.execCNoneRd4020 org a s
  | .cNoneRd4040 org a => Sys2Proof.Machine.execCNoneRd4040 org a s
  | .cNoneRd4080 org a => Sys2Proof.Machine.execCNoneRd4080 org a s
  | .cNoneRd4100 org a => Sys2Proof.Machine.execCNoneRd4100 org a s
  | .cNoneRd4200 org a => Sys2Proof.Machine.execCNoneRd4200 org a s
  | .cNoneRd4400 org a => Sys2Proof.Machine.execCNoneRd4400 org a s
  | .cNoneRd4800 org a => Sys2Proof.Machine.execCNoneRd4800 org a s
  | .cNoneRd5000 org a => Sys2Proof.Machine.execCNoneRd5000 org a s
  | .cNoneWr4018 org a v => Sys2Proof.Machine.execCNoneWr4018 org a v s
  | .cNoneWr4020 org a v => Sys2Proof.Machine.execCNoneWr4020 org a v s
  | .cNoneWr4040 org a v => Sys2Proof.Machine.execCNoneWr4040 org a v s
  | .cNoneWr4080 org a v => Sys2Proof.Machine.execCNoneWr4080 org a v s
  | .cNoneWr4100 org a v => Sys2Proof.Machine.execCNoneWr4100 org a v s
  | .cNoneWr4200 org a v => Sys2Proof.Machine.execCNoneWr4200 org a v s
  | .cNoneWr4400 org a v => Sys2Proof.Machine.execCNoneWr4400 org a v s
  | .cNoneWr4800 org a v => Sys2Proof.Machine.execCNoneWr4800 org a v s
  | .cNoneWr5000 org a v => Sys2Proof.Machine.execCNoneWr5000 org a v s
  | .cCartRd6000 org a => Sys2Proof.Machine.execCCartRd6000 org a s
  | .cCartRd8000 org a => Sys2Proof.Machine.execCCartRd8000 org a s
  | .cCartWr6000 org a v => Sys2Proof.Machine.execCCartWr6000 org a v s
  | .cCartWr8000 org a v => Sys2Proof.Machine.execCCartWr8000 org a v s
  | .pCartRd org a => Sys2Proof.Machine.execPCartRd org a s
  | .pCartWr org a v => Sys2Proof.Machine.execPCartWr org a v s
  | .pVramRd2000 org a => Sys2Proof.Machine.execPVramRd2000 org a s
  | .pVramRd3000 org a => Sys2Proof.Machine.execPVramRd3000 org a s
  | .pVramRd3800 org a => Sys2Proof.Machine.execPVramRd3800 org a s
  | .pVramRd3C00 org a => Sys2Proof.Machine.execPVramRd3C00 org a s
  | .pVramRd3E00 org a => Sys2Proof.Machine.execPVramRd3E00 org a s
  | .pVramWr2000 org a v => Sys2Proof.Machine.execPVramWr2000 org a v s
  | .pVramWr3000 org a v => Sys2Proof.Machine.execPVramWr3000 org a v s
  | .pVramWr3800 org a v => Sys2Proof.Machine.execPVramWr3800 org a v s
  | .pVramWr3C00 org a v => Sys2Proof.Machine.execPVramWr3C00 org a v s
  | .pVramWr3E00 org a v => Sys2Proof.Machine.execPVramWr3E00 org a v s
  | .pPalRd org a => Sys2Proof.Machine.execPPalRd org a s
  | .pPalWr org a v => Sys2Proof.Machine.execPPalWr org a v s
  | .irqReg id => Sys2Proof.Machine.execIrqReg id s
  | .irqPoll => Sys2Proof.Machine.execIrqPoll s
  | .srcSet id => Sys2Proof.Machine.execSrcSet id s
  | .srcClr id => Sys2Proof.Machine.execSrcClr id s
  | .clkStart => Sys2Proof.Machine.execClkStart s
  | .clkTick => Sys2Proof.Machine.execClkTick s
  | .clkShutdown => Sys2Proof.Machine.execClkShutdown s
  | .imgWrite => Sys2Proof.Machine.execImgWrite s
  | .imgRead => Sys2Proof.Machine.execImgRead s
  | .ctrlWrite => Sys2Proof.Machine.execCtrlWrite s
  | .ctrlRead => Sys2Proof.Machine.execCtrlRead s
  | .seqIdle => Sys2Proof.Machine.execSeqIdle s
  | .seqTop => Sys2Proof.Machine.execSeqTop s
  | .seqCpu => Sys2Proof.Machine.execSeqCpu s
  | .seqApu => Sys2Proof.Machine.execSeqApu s
  | .seqPpu0 => Sys2Proof.Machine.execSeqPpu0 s
  | .seqPpu1 => Sys2Proof.Machine.execSeqPpu1 s
  | .seqPpu2 => Sys2Proof.Machine.execSeqPpu2 s
  | .seqPace => Sys2Proof.Machine.execSeqPace s
  | .seqDrain => Sys2Proof.Machine.execSeqDrain s
  | .seqHalt => Sys2Proof.Machine.execSeqHalt s

end Sys2Proof.Machine
end

