-- ==== Sys2Proof/Machine/Fetch.lean ====
section
/-! DEFINITION. Which operation comes next: the first one presented, and when none is, a turn of the emulation agent,
which issues `CLK.TICK` "continuously" (R187). -/

namespace Sys2Proof.Machine

/-- The state in which the next operation runs: it is on the port. With nothing presented it is a turn of the
emulation agent whose inputs are a fresh free value. Log entries 1 and 2. -/
def latch (s : State) : State :=
  match s.inbox with
  | r :: rest => { s with port := r, inbox := rest }
  | [] => { s with port := .tick (Config.freeInputs s.draws), draws := s.draws + 1 }

/-- The word that selects the operation on the port: its `W` word, or for a turn of the emulation agent the `S` word
of the sequencer's position (R90, R98). -/
def codeOf (s : State) : Code :=
  match s.port with
  | .word w _ => .w w
  | .tick _ => .s (positionWord s)

/-- The operation on the port, decoded. -/
def fetch (s : State) : Except Reject Instr := decode (codeOf (latch s))

/-- What a word that selects no operation does (R100, R198, R244): `refuse`, with the word. -/
def refuseWord (s : State) : State := refuseOp s.port.opWord s

/-- Inputs for a placed operation: all zero or empty, but one zero byte on the data path of `IMG.WRITE`, which carries
at least one (R220). -/
def placedInputs : Inputs := { quietInputs with imgBytes := [0#8] }

/-- Present an operation word before everything else, or put the sequencer at the position of an `S` word and present
a turn of the emulation agent. Log entry 1. -/
def placeWord (s : State) (nbits w : Nat) : State :=
  if nbits = 32 then { s with inbox := .word (BitVec.ofNat 32 w) placedInputs :: s.inbox }
  else { s with cstate := cstateOfCode (cstateOf (BitVec.ofNat 5 w)), slot := slotOfCode (slotOf (BitVec.ofNat 5 w)),
                inbox := .tick placedInputs :: s.inbox }

end Sys2Proof.Machine
end

