-- ==== Sys2Proof/Machine/Step.lean ====
section
/-! DEFINITION. One step of the machine: one operation (R17). -/

namespace Sys2Proof.Machine

/-- The next operation, performed; a word that selects none is refused (R100). -/
def step (s : State) : Host.Outcome State Fault Refusal :=
  match fetch s with
  | .ok i => exec i (latch s)
  | .error _ => .next (refuseWord (latch s))

/-- The state in which the next step performs the operation whose bits are `w`. -/
def State.withFetchWord (s : State) (nbits w : Nat) : State := placeWord s nbits w

end Sys2Proof.Machine
end

