-- ==== Sys2Proof/Safety.lean ====
section
/-! DEFINITION. The terms statements use: the invariant of R51, made inductive; what an operation may leave changed;
small predicates on states and outputs. -/

namespace Sys2Proof.Machine

/-- Both locks are `FREE`, as between operations (R37, R51 f). -/
def LocksFree (s : State) : Prop := s.imgLock = .free ∧ s.ctrlLock = .free

/-- The state without what an operation of a collaborator or of `PRES` can write: stores, `SRC`, `req`, `CTRL`,
`shutdown_latch` and the outputs. Two states with the same `control` agree on every other field. -/
def control (s : State) : State :=
  { s with ram := [], vram := [], pal := [], img := [], src := [], req := [], ctrl := 0, shutdownLatch := false,
           trace := [] }

/-- The state without the outputs: what R20 lists, the inputs and the parameters. -/
def silent (s : State) : State := { s with trace := [] }

/-- Picture ticks the iteration in progress still owes at a slot (R191 to R193). -/
def ticksDue : Slot → Nat
  | .apu => 3
  | .ppu0 => 3
  | .ppu1 => 2
  | .ppu2 => 1
  | .top => 0
  | .cpu => 0
  | .pace => 0
  | .unused7 => 0

/-- Processor steps whose audio half (slot `APU`) is done (R190). -/
def stepsHeard (s : State) : Nat := if s.slot = .apu then s.nCpu - 1 else s.nCpu

/-- The slots at which an iteration is complete (R51 c, R199). -/
def AtBoundary (s : State) : Prop := s.slot = .top ∨ s.slot = .cpu ∨ s.slot = .pace

/-- What holds after power-on and after every operation: R51 (a) to (f), with what makes it inductive, the canonical
form of the stores and the ranges of R20. -/
structure Inv (s : State) : Prop where
  /-- R7, R8: the parameters are legal. -/
  params : s.cfg.valid = true
  /-- Every store is in canonical form. -/
  stores : s.ram.wf ∧ s.vram.wf ∧ s.pal.wf ∧ s.img.wf
  /-- R22: cells `0x000` to `0x7FF`. -/
  ramCells : ∀ c ∈ s.ram, c.1 < Config.ramSize
  /-- R23: a listed cell of `VRAM` is the cell of some address. -/
  vramCells : ∀ c ∈ s.vram, ∃ ra, c.1 = vramCell s.cfg ra
  /-- R23: a listed cell of `PAL` is the cell of some address. -/
  palCells : ∀ c ∈ s.pal, ∃ ra, c.1 = palCell s.cfg ra
  /-- R35: `IMG_SIZE` cells. -/
  imgCells : ∀ c ∈ s.img, c.1 < s.cfg.imgSize
  /-- R36: `CTRL_W` bits. -/
  ctrlBits : s.ctrl < 2 ^ s.cfg.ctrlW
  /-- R25: the requesting sources, each once. -/
  sources : s.req.Pairwise (· < ·)
  /-- R51 (f). -/
  locks : LocksFree s
  /-- R51 (a). -/
  outside : s.cstate ≠ .running → s.slot = .top
  /-- R27: the value 7 is never produced. -/
  slotUsed : s.slot ≠ .unused7
  /-- R51 (b). -/
  batch : s.batchCnt ≤ s.cfg.batch ∧ (s.batchCnt = s.cfg.batch ↔ s.slot = .pace)
  /-- R51 (c), at every slot. -/
  pictureTicks : s.nPpu + ticksDue s.slot = 3 * s.nCpu
  /-- R51 (d), at every slot. -/
  audioTicks : s.nApu = stepsHeard s / 2
  /-- R51 (d), at every slot. -/
  audioPhase : s.apuPhase = (stepsHeard s % 2 == 1)
  /-- R51 (e). -/
  audioOn : s.audioPlay = true ↔ s.cstate = .running ∨ s.cstate = .stopping

/-- An output that is a call of a device's entry (R16). -/
def isDeviceCall : Output → Bool
  | .devRead _ _ _ _ => true
  | .devWrite _ _ _ _ _ => true
  | _ => false

/-- An output at which this unit is mutated: a call of its register entries or its own `clock()` (R277). -/
def mutates : Device → Output → Bool
  | d, .devRead e _ _ _ => e == d
  | d, .devWrite e _ _ _ _ => e == d
  | d, .ppuTick => d == .ppu
  | d, .apuTick => d == .apu
  | _, _ => false

/-- The cell an owner's resolved address names, for the owners that are stores (R94, R122, R154, R156). -/
def ownerCell (cfg : Params) : Owner × Addr → Option (Store × Nat)
  | (.ram, ra) => some (.ram, ra.toNat)
  | (.vram, ra) => some (.vram, vramCell cfg ra)
  | (.pal, ra) => some (.pal, palCell cfg ra)
  | (.none, _) => none
  | (.ppureg, _) => none
  | (.apu, _) => none
  | (.ctrlDev, _) => none
  | (.cart, _) => none

/-- A reserved `W` word, field by field (R100, R97). -/
def reservedWord (w : OpWord) : Bool :=
  5 ≤ (unitOf w).toNat
    || ((unitOf w).toNat ≤ 1 && (fnOf w).getLsbD 3)
    || ((unitOf w).toNat == 2 && 4 ≤ (fnOf w).toNat)
    || ((unitOf w).toNat == 3 && 3 ≤ (fnOf w).toNat)
    || ((unitOf w).toNat == 4 && !([0b0000, 0b0101, 0b0110, 0b0011].contains (fnOf w).toNat))

/-- The bytes bus reads returned, among some outputs (R44 `rd`). -/
def returned : List Output → List Byte
  | [] => []
  | .rd v :: os => v :: returned os
  | _ :: os => returned os

/-- The state without the stores and the outputs: every other field, register and input. -/
def withoutStores (s : State) : State := { s with ram := [], vram := [], pal := [], img := [], trace := [] }

/-- From `s` to `t` cell `i` of store `st` came to hold `v`, and every other cell of every store reads as before. -/
def OnlyCell (st : Store) (i : Nat) (v : Byte) (s t : State) : Prop :=
  readCell st i t = v ∧ ∀ st' j, st' ≠ st ∨ j ≠ i → readCell st' j t = readCell st' j s

/-- The operation answers a next state: the outputs `before` appear, the device of owner `o` called does what it does
(R16), then the outputs `after` appear. What it does leaves everything `control` holds; where it issues nothing the
operation writes nothing but the outputs. -/
def CallsDevice (o : Owner) (i : Instr) (s : State) (before after : List Output) : Prop :=
  ∃ t, accessEntry o s { s with trace := s.trace ++ before } = some t ∧ control t = control s ∧
    exec i s = .next { t with trace := t.trace ++ after } ∧
    (s.port.inputs.acts = .done → t = { s with trace := s.trace ++ before })

end Sys2Proof.Machine
end

