-- ==== Sys2Proof/Certificates/Slice0/Obligations.lean ====
section
/-! DEFINITION. The statements for the provers. Results and calls are read from the outputs the model records in `trace`
(log entry 4). `LocksFree` is R51 (f), `cartOk` the premise of R242; both are invariants or inputs, not choices. -/

open Sys2Proof Sys2Proof.Machine

/-! ## Encoding and decoding -/

/-- R96, R98: decoding the word of a well-formed operation gives the operation back, every operand at every value. -/
def Obligations.DecodeEncode : Prop :=
  ∀ i : Instr, wellFormed i = true → decode (encode i) = .ok i

/-- R104: what the decoder reads from a word, ignored bits whatever they are, is well formed and is the row of the
table the word selects. -/
def Obligations.DecodeFollowsTable : Prop :=
  ∀ (c : Code) (i : Instr), decode c = .ok i → wellFormed i = true ∧ (tableRow i).selects c = true

/-- R104: no word selects two rows, and every word of the four bus sets selects a row ("the rows partition all 65 536
addresses"). -/
def Obligations.RowsPartition : Prop :=
  (∀ (c : Code) (i j : Instr), (tableRow i).selects c = true → (tableRow j).selects c = true → tableRow i = tableRow j) ∧
  (∀ w : OpWord, (unitOf w).toNat ≤ 1 → (fnOf w).getLsbD 3 = false → ∃ i, (tableRow i).selects (.w w) = true)

/-- R100, R244: a reserved word is not performed: nothing changes but the recorded event; no other word is reserved. That
the run goes on, the word taken from `inbox` and carried by the event, is the model's reading, log entries 1 and 5. -/
def Obligations.ReservedWordsRefused : Prop :=
  (∀ (s : State) (w : OpWord) (inp : Inputs) (rest : List Request),
    s.inbox = .word w inp :: rest → reservedWord w = true →
    step s = .next { s with inbox := rest, port := .word w inp, trace := s.trace ++ [.event (.opRefused w)] }) ∧
  (∀ w : OpWord, reservedWord w = false → ∃ i, decodeW w = .ok i)

/-- 95_test_vectors.md A, C, D, E, F: words written there decode to the operations named there. -/
def Obligations.VectorWords : Prop :=
  decodeW 0x01401402#32 = .ok (.cOamdmaWr 0#2 0x02#8) ∧
  decodeW 0x02200200#32 = .ok (.cPpuregRd 1#2 0x2002#16) ∧
  decodeW 0x127F0000#32 = .ok (.pPalRd 1#2 0x7F00#16) ∧
  decodeW 0x20FFFF00#32 = .ok (.irqReg 0xFFFF#16) ∧
  decodeW 0x31000000#32 = .ok .clkTick ∧
  decodeW 0x43000000#32 = .ok .ctrlRead ∧
  decodeS 0b01110#5 = .ok .seqPace ∧
  decodeS 0b10101#5 = .ok .seqDrain

/-! ## The step -/

/-- R17, R98, R187: a step is the decoded operation, run in the state in which it is on the port: the first operation
presented, or a turn of the emulation agent that was presented. That presented operations stand in `inbox` is the
model's choice, log entry 1. That with nothing presented a step is a turn of the emulation agent with free inputs, in
`Idle` and `Stopped` too, where R198 gives that agent no step, is the model's choice, log entry 2, and no rule of the
spec. -/
def Obligations.StepRunsOperation : Prop :=
  (∀ (s : State) (w : OpWord) (inp : Inputs) (rest : List Request) (i : Instr),
    s.inbox = .word w inp :: rest → decodeW w = .ok i →
    step s = exec i { s with inbox := rest, port := .word w inp }) ∧
  (∀ (s : State) (inp : Inputs) (rest : List Request) (i : Instr),
    s.inbox = .tick inp :: rest → decodeS (positionWord s) = .ok i →
    step s = exec i { s with inbox := rest, port := .tick inp }) ∧
  (∀ (s : State) (i : Instr), s.inbox = [] → decodeS (positionWord s) = .ok i →
    step s = exec i { s with port := .tick (Config.freeInputs s.draws), draws := s.draws + 1 })

/-- R98, R187: `CLK.TICK` performs the micro-operation the position selects, whatever the position; at `S == 01111` it
is `refuse` (R198), whose event carries the word on the port, the model's reading, log entry 5. -/
def Obligations.TickPerformsPosition : Prop :=
  ∀ s : State, LocksFree s →
    (∀ i, decodeS (positionWord s) = .ok i → ∃ t, exec i s = .next t ∧ exec .clkTick s = .next t) ∧
    (s.cstate = .idle → decodeS (positionWord s) = .ok .seqIdle) ∧
    (s.cstate = .running → s.slot = .top → decodeS (positionWord s) = .ok .seqTop) ∧
    (s.cstate = .running → s.slot = .cpu → decodeS (positionWord s) = .ok .seqCpu) ∧
    (s.cstate = .running → s.slot = .apu → decodeS (positionWord s) = .ok .seqApu) ∧
    (s.cstate = .running → s.slot = .ppu0 → decodeS (positionWord s) = .ok .seqPpu0) ∧
    (s.cstate = .running → s.slot = .ppu1 → decodeS (positionWord s) = .ok .seqPpu1) ∧
    (s.cstate = .running → s.slot = .ppu2 → decodeS (positionWord s) = .ok .seqPpu2) ∧
    (s.cstate = .running → s.slot = .pace → decodeS (positionWord s) = .ok .seqPace) ∧
    (s.cstate = .stopping → decodeS (positionWord s) = .ok .seqDrain) ∧
    (s.cstate = .stopped → decodeS (positionWord s) = .ok .seqHalt) ∧
    (s.cstate = .running → s.slot = .unused7 →
      exec .clkTick s = .next { s with trace := s.trace ++ [.event (.opRefused s.port.opWord)] })

/-! ## The address maps -/

/-- R62: the processor-space map, range by range. -/
def Obligations.ProcessorMap : Prop :=
  ∀ a : Addr,
    (a.toNat ≤ 0x1FFF → routeC a = (.ram, a &&& 0x07FF#16)) ∧
    (0x2000 ≤ a.toNat → a.toNat ≤ 0x3FFF → routeC a = (.ppureg, 0x2000#16 ||| (a &&& 0x0007#16))) ∧
    (0x4000 ≤ a.toNat → a.toNat ≤ 0x4013 → routeC a = (.apu, a)) ∧
    (a.toNat = 0x4014 → routeC a = (.ppureg, a)) ∧
    (a.toNat = 0x4015 → routeC a = (.apu, a)) ∧
    (a.toNat = 0x4016 → routeC a = (.ctrlDev, a)) ∧
    (a.toNat = 0x4017 → routeC a = (.apu, a)) ∧
    (0x4018 ≤ a.toNat → a.toNat ≤ 0x5FFF → routeC a = (.none, a)) ∧
    (0x6000 ≤ a.toNat → routeC a = (.cart, a))

/-- R63: the picture-unit-space map, range by range. -/
def Obligations.PictureMap : Prop :=
  ∀ a : Addr,
    (a.toNat ≤ 0x1FFF → routeP a = (.cart, a)) ∧
    (0x2000 ≤ a.toNat → a.toNat ≤ 0x3EFF → routeP a = (.vram, a &&& 0x2FFF#16)) ∧
    (0x3F00 ≤ a.toNat → a.toNat ≤ 0x3FFF → routeP a = (.pal, a)) ∧
    (0x4000 ≤ a.toNat → routeP a = routeP (a &&& 0x3FFF#16))

/-- R64 (c), R22: the four mirrors of working RAM reach the same cell. -/
def Obligations.RamMirrors : Prop :=
  (∀ a b : Addr, a.toNat ≤ 0x1FFF → b.toNat ≤ 0x1FFF → a &&& 0x07FF#16 = b &&& 0x07FF#16 → routeC a = routeC b) ∧
  (∀ (a : Addr) (k : Nat), a.toNat < 0x0800 → k ≤ 3 → routeC (a + BitVec.ofNat 16 (0x0800 * k)) = routeC a)

/-- R64 (d): the register index is `a & 0x7` in every window. -/
def Obligations.RegisterWindows : Prop :=
  ∀ a : Addr, 0x2000 ≤ a.toNat → a.toNat ≤ 0x3FFF →
    (routeC a).1 = .ppureg ∧ (routeC a).2.toNat = 0x2000 + a.toNat % 8

/-- R64 (f), R63, both marked derived there: resolving a resolved address again gives the same owner and the same
resolved address; the non-recursive form of `routeP` is the recursive one; a resolved video-RAM address lies in `0x2000`
to `0x2FFF`. -/
def Obligations.FoldIdempotent : Prop :=
  (∀ (sp : Space) (a : Addr), route sp (route sp a).2 = route sp a) ∧
  (∀ a : Addr, routeP a = routeP0 (a &&& 0x3FFF#16)) ∧
  (∀ a : Addr, (routeP a).1 = .vram → 0x2000 ≤ (routeP a).2.toNat ∧ (routeP a).2.toNat ≤ 0x2FFF)

/-- R158: for an address from `0x4000` up both entry points behave as for `a & 0x3FFF`, the router output is the same,
no device sees a picture-unit-space address above `0x3FFF`, and bits 15 and 14 of the address are in the mask of no
picture-unit row. -/
def Obligations.PictureFold : Prop :=
  (∀ (run : State → Option State) (a : Addr) (org : Origin) (v : Byte) (s : State), 0x4000 ≤ a.toNat →
    routeP a = routeP (a &&& 0x3FFF#16) ∧
    memRead .p run a org v s = memRead .p run (a &&& 0x3FFF#16) org v s ∧
    memWrite .p run a org v s = memWrite .p run (a &&& 0x3FFF#16) org v s) ∧
  (∀ a : Addr, (routeP a).2.toNat ≤ 0x3FFF) ∧
  (∀ (org : Origin) (a : Addr) (v : Byte) (we : Bool) (i : Instr),
    (tableRow i).selects (.w (busWord 1#4 org we a v)) =
      (tableRow i).selects (.w (busWord 1#4 org we (a &&& 0x3FFF#16) v)))

/-- R93: the owner codes, and which router produces which. -/
def Obligations.OwnerCodes : Prop :=
  ownerCode .none = 0#3 ∧ ownerCode .ram = 1#3 ∧ ownerCode .ppureg = 2#3 ∧ ownerCode .apu = 3#3 ∧
  ownerCode .ctrlDev = 4#3 ∧ ownerCode .cart = 5#3 ∧ ownerCode .vram = 6#3 ∧ ownerCode .pal = 7#3 ∧
  (∀ a, (ownerCode (routeC a).1).toNat ≤ 5) ∧ (∀ a, 5 ≤ (ownerCode (routeP a).1).toNat)

/-! ## Bus operations, all rows at once -/

/-- R120, R121, R150, R151: every decoded bus operation does what the generic entry point of its space does with the
word's address, origin and data. -/
def Obligations.DecodedFormsAreGeneric : Prop :=
  ∀ (s : State) (w : OpWord) (i : Instr) (sp : Space),
    (sp = .c ∧ unitOf w = 0#4 ∨ sp = .p ∧ unitOf w = 1#4) → decodeW w = .ok i →
    exec i s = bus
      (if (fnOf w).getLsbD 0 then memWrite sp (accessEntry (route sp (arg16Of w)).1 s) (arg16Of w) (orgOf (fnOf w)) (arg8Of w) s
       else memRead sp (accessEntry (route sp (arg16Of w)).1 s) (arg16Of w) (orgOf (fnOf w)) s.port.inputs.devRd s) s

/-- R136, R159: every bus operation completes, in every coordinator state, and leaves the sequencer, the counters, the
locks and the parameters alone. -/
def Obligations.BusCompletes : Prop :=
  ∀ (s : State) (w : OpWord) (i : Instr), (unitOf w).toNat ≤ 1 → decodeW w = .ok i → s.cartOk = true → LocksFree s →
    ∃ t, exec i s = .next t ∧ control t = control s

/-- R137, R159: one operation calls one device entry, once, and writes nothing itself; or it touches the one cell its
resolved address names; or, unmapped, it touches nothing. -/
def Obligations.OneOwnerTouched : Prop :=
  ∀ (s : State) (w : OpWord) (i : Instr) (sp : Space),
    (sp = .c ∧ unitOf w = 0#4 ∨ sp = .p ∧ unitOf w = 1#4) → decodeW w = .ok i → s.cartOk = true → LocksFree s →
    s.port.inputs.acts = .done →
    ∃ t new, exec i s = .next t ∧ t.trace = s.trace ++ new ∧ withoutStores t = withoutStores s ∧
      (∀ st j, ownerCell s.cfg (route sp (arg16Of w)) ≠ some (st, j) → readCell st j t = readCell st j s) ∧
      (new.filter isDeviceCall).length =
        (if ownerCell s.cfg (route sp (arg16Of w)) = none ∧ (route sp (arg16Of w)).1 ≠ .none then 1 else 0)

/-- R242 and 93_implementation_defined.md U18: with `cart_ok == 0` a bus operation has no meaning, and the run is refused
by that name. -/
def Obligations.NoCartridgeRefused : Prop :=
  ∀ (s : State) (w : OpWord) (i : Instr), (unitOf w).toNat ≤ 1 → decodeW w = .ok i → s.cartOk = false →
    exec i s = .refused .noCartridge

/-! ## Bus operations, family by family -/

/-- R122: `return RAM[a & 0x07FF]`; nothing is written. -/
def Obligations.RamRead : Prop :=
  ∀ (s : State) (org : Origin) (a : Addr), s.cartOk = true →
    exec (.cRamRd org a) s = .next { s with trace := s.trace ++
      [.route .c .ram (a &&& 0x07FF#16), .rd (readCell .ram (a &&& 0x07FF#16).toNat s)] }

/-- R123: `RAM[a & 0x07FF] <- v`; "the 2047 other cells, and everything else, are unchanged". -/
def Obligations.RamWrite : Prop :=
  ∀ (s : State) (org : Origin) (a : Addr) (v : Byte), s.cartOk = true →
    ∃ t, exec (.cRamWr org a v) s = .next t ∧ OnlyCell .ram (a &&& 0x07FF#16).toNat v s t ∧
      withoutStores t = withoutStores s ∧ t.trace = s.trace ++ [.route .c .ram (a &&& 0x07FF#16)]

/-- R22, R23, R74: in either space a write to a store is what the next read returns, through every address of that space
whose resolved address names the same cell: the same address, a mirror the router folds, or one that `VRAM_FOLD` or
`PAL_FOLD`, whatever they are, sends there. The read's own route is what its outputs name. -/
def Obligations.WriteThenRead : Prop :=
  ∀ (sp : Space) (run run' : State → Option State) (a b : Addr) (org org' : Origin) (v ans : Byte) (s t : State),
    (route sp a).1 = .ram ∨ (route sp a).1 = .vram ∨ (route sp a).1 = .pal →
    ownerCell s.cfg (route sp b) = ownerCell s.cfg (route sp a) →
    memWrite sp run a org v s = some t →
    memRead sp run' b org' ans t =
      some { t with trace := t.trace ++ [.route sp (route sp b).1 (route sp b).2, .rd v] }

/-- R124, R125: the picture unit is called once, with `0x2000 | (a & 0x0007)`. -/
def Obligations.PictureRegisterAccess : Prop :=
  ∀ (s : State) (org : Origin) (a : Addr) (v : Byte), s.cartOk = true → LocksFree s →
    CallsDevice .ppureg (.cPpuregRd org a) s
      [.route .c .ppureg (0x2000#16 ||| (a &&& 0x0007#16)), .devRead .ppu (0x2000#16 ||| (a &&& 0x0007#16)) org none]
      [.rd s.port.inputs.devRd] ∧
    CallsDevice .ppureg (.cPpuregWr org a v) s
      [.route .c .ppureg (0x2000#16 ||| (a &&& 0x0007#16)), .devWrite .ppu (0x2000#16 ||| (a &&& 0x0007#16)) org v none]
      []

/-- R126, R127: the audio unit is called once, with the address unchanged. -/
def Obligations.AudioRegisterAccess : Prop :=
  ∀ (s : State) (org : Origin) (a : Addr) (v : Byte), s.cartOk = true → LocksFree s →
    CallsDevice .apu (.cApuRd4000 org a) s [.route .c .apu a, .devRead .apu a org none] [.rd s.port.inputs.devRd] ∧
    CallsDevice .apu (.cApuRd4010 org a) s [.route .c .apu a, .devRead .apu a org none] [.rd s.port.inputs.devRd] ∧
    CallsDevice .apu (.cApuRd4015 org) s [.route .c .apu 0x4015#16, .devRead .apu 0x4015#16 org none]
      [.rd s.port.inputs.devRd] ∧
    CallsDevice .apu (.cApuRd4017 org) s [.route .c .apu 0x4017#16, .devRead .apu 0x4017#16 org none]
      [.rd s.port.inputs.devRd] ∧
    CallsDevice .apu (.cApuWr4000 org a v) s [.route .c .apu a, .devWrite .apu a org v none] [] ∧
    CallsDevice .apu (.cApuWr4010 org a v) s [.route .c .apu a, .devWrite .apu a org v none] [] ∧
    CallsDevice .apu (.cApuWr4015 org v) s [.route .c .apu 0x4015#16, .devWrite .apu 0x4015#16 org v none] [] ∧
    CallsDevice .apu (.cApuWr4017 org v) s [.route .c .apu 0x4017#16, .devWrite .apu 0x4017#16 org v none] []

/-- R128, R129: `0x4014` is the picture unit's, for reads and writes, with the address unchanged. -/
def Obligations.BulkTransferRegister : Prop :=
  ∀ (s : State) (org : Origin) (v : Byte), s.cartOk = true → LocksFree s →
    CallsDevice .ppureg (.cOamdmaRd org) s [.route .c .ppureg 0x4014#16, .devRead .ppu 0x4014#16 org none]
      [.rd s.port.inputs.devRd] ∧
    CallsDevice .ppureg (.cOamdmaWr org v) s [.route .c .ppureg 0x4014#16, .devWrite .ppu 0x4014#16 org v none] []

/-- R130, R131, R224: the snapshot is read once, before the controller's entry, and handed to it. -/
def Obligations.ControllerAccess : Prop :=
  ∀ (s : State) (org : Origin) (v : Byte), s.cartOk = true → LocksFree s →
    CallsDevice .ctrlDev (.cCtrlRd org) s
      [.route .c .ctrlDev 0x4016#16, .ctrlValue s.ctrl, .devRead .ctrlDev 0x4016#16 org (some s.ctrl)]
      [.rd s.port.inputs.devRd] ∧
    CallsDevice .ctrlDev (.cCtrlWr org v) s
      [.route .c .ctrlDev 0x4016#16, .ctrlValue s.ctrl, .devWrite .ctrlDev 0x4016#16 org v (some s.ctrl)] []

/-- R132, R133: an unmapped read returns `0x00`, an unmapped write is discarded; no device is called and nothing is
written. -/
def Obligations.UnmappedAccess : Prop :=
  ∀ (s : State) (org : Origin) (a : Addr) (v : Byte), s.cartOk = true →
    (∀ i ∈ [Instr.cNoneRd4018 org a, .cNoneRd4020 org a, .cNoneRd4040 org a, .cNoneRd4080 org a, .cNoneRd4100 org a,
        .cNoneRd4200 org a, .cNoneRd4400 org a, .cNoneRd4800 org a, .cNoneRd5000 org a],
      ∃ t new, exec i s = .next t ∧ silent t = silent s ∧ t.trace = s.trace ++ new ∧ returned new = [0x00#8] ∧
        new.filter isDeviceCall = []) ∧
    (∀ i ∈ [Instr.cNoneWr4018 org a v, .cNoneWr4020 org a v, .cNoneWr4040 org a v, .cNoneWr4080 org a v,
        .cNoneWr4100 org a v, .cNoneWr4200 org a v, .cNoneWr4400 org a v, .cNoneWr4800 org a v, .cNoneWr5000 org a v],
      ∃ t new, exec i s = .next t ∧ silent t = silent s ∧ t.trace = s.trace ++ new ∧ returned new = [] ∧
        new.filter isDeviceCall = [])

/-- R134, R135: the cartridge is called once, with the address unchanged. -/
def Obligations.CartridgeAccess : Prop :=
  ∀ (s : State) (org : Origin) (a : Addr) (v : Byte), s.cartOk = true → LocksFree s →
    CallsDevice .cart (.cCartRd6000 org a) s [.route .c .cart a, .devRead .cart a org none] [.rd s.port.inputs.devRd] ∧
    CallsDevice .cart (.cCartRd8000 org a) s [.route .c .cart a, .devRead .cart a org none] [.rd s.port.inputs.devRd] ∧
    CallsDevice .cart (.cCartWr6000 org a v) s [.route .c .cart a, .devWrite .cart a org v none] [] ∧
    CallsDevice .cart (.cCartWr8000 org a v) s [.route .c .cart a, .devWrite .cart a org v none] []

/-- R152, R153: the cartridge is called once, with `a & 0x3FFF`. -/
def Obligations.PatternTableAccess : Prop :=
  ∀ (s : State) (org : Origin) (a : Addr) (v : Byte), s.cartOk = true → LocksFree s →
    CallsDevice .cart (.pCartRd org a) s [.route .p .cart (a &&& 0x3FFF#16), .devRead .cart (a &&& 0x3FFF#16) org none]
      [.rd s.port.inputs.devRd] ∧
    CallsDevice .cart (.pCartWr org a v) s [.route .p .cart (a &&& 0x3FFF#16), .devWrite .cart (a &&& 0x3FFF#16) org v none] []

/-- R154, R156: a read of video RAM or palette memory returns the cell; nothing is written. -/
def Obligations.VideoRead : Prop :=
  ∀ (s : State) (org : Origin) (a : Addr), s.cartOk = true →
    (∀ i ∈ [Instr.pVramRd2000 org a, .pVramRd3000 org a, .pVramRd3800 org a, .pVramRd3C00 org a, .pVramRd3E00 org a],
      exec i s = .next { s with trace := s.trace ++
        [.route .p .vram ((a &&& 0x3FFF#16) &&& 0x2FFF#16),
         .rd (readCell .vram (vramCell s.cfg ((a &&& 0x3FFF#16) &&& 0x2FFF#16)) s)] }) ∧
    exec (.pPalRd org a) s = .next { s with trace := s.trace ++
      [.route .p .pal (a &&& 0x3FFF#16), .rd (readCell .pal (palCell s.cfg (a &&& 0x3FFF#16)) s)] }

/-- R155, R157: a write of video RAM or palette memory replaces exactly that cell. -/
def Obligations.VideoWrite : Prop :=
  ∀ (s : State) (org : Origin) (a : Addr) (v : Byte), s.cartOk = true →
    (∀ i ∈ [Instr.pVramWr2000 org a v, .pVramWr3000 org a v, .pVramWr3800 org a v, .pVramWr3C00 org a v,
        .pVramWr3E00 org a v],
      ∃ t, exec i s = .next t ∧ OnlyCell .vram (vramCell s.cfg ((a &&& 0x3FFF#16) &&& 0x2FFF#16)) v s t ∧
        withoutStores t = withoutStores s ∧
        t.trace = s.trace ++ [.route .p .vram ((a &&& 0x3FFF#16) &&& 0x2FFF#16)]) ∧
    (∃ t, exec (.pPalWr org a v) s = .next t ∧ OnlyCell .pal (palCell s.cfg (a &&& 0x3FFF#16)) v s t ∧
      withoutStores t = withoutStores s ∧ t.trace = s.trace ++ [.route .p .pal (a &&& 0x3FFF#16)])

/-! ## Interrupt Aggregator -/

/-- R170: `SRC <- SRC ++ [id]` and nothing else. -/
def Obligations.IrqRegister : Prop :=
  ∀ (s : State) (id : SrcId), exec (.irqReg id) s = .next { s with src := s.src ++ [id] }

/-- R172: the line is returned; nothing is cleared. -/
def Obligations.IrqPoll : Prop :=
  ∀ s : State, exec .irqPoll s = .next { s with trace := s.trace ++ [.irqLine (irqPending s)] }

/-- R171: the line is 1 exactly when a registered source requests; 0 when `SRC` is empty. -/
def Obligations.AggregateLine : Prop :=
  (∀ s : State, irqPending s = true ↔ ∃ id ∈ s.src, requesting s id = true) ∧
  (∀ s : State, s.src = [] → irqPending s = false)

/-- R175: the order of `SRC` and duplicate registrations do not matter. -/
def Obligations.OrderIndependence : Prop :=
  (∀ (s : State) (src' : List SrcId), s.src.Perm src' → irqPending { s with src := src' } = irqPending s) ∧
  (∀ (s : State) (id : SrcId), id ∈ s.src → irqPending { s with src := s.src ++ [id] } = irqPending s)

/-- R173, R174: exactly `req(id)` changes, to 1 or to 0. -/
def Obligations.SourceStimulus : Prop :=
  ∀ (s : State) (id : SrcId),
    (∃ t, exec (.srcSet id) s = .next t ∧ { t with req := s.req } = s ∧
      ∀ j, requesting t j = (j == id || requesting s j)) ∧
    (∃ t, exec (.srcClr id) s = .next t ∧ { t with req := s.req } = s ∧
      ∀ j, requesting t j = (j != id && requesting s j))

/-! ## Clock Coordinator -/

/-- R186: `CLK.START` in `Idle` with a cartridge calls `CPU.reset()`, and `APU.play()` when that has returned, each once,
then writes its five registers; where neither entry issues anything, nothing else changes. Anywhere else it changes
nothing. -/
def Obligations.ClockStart : Prop :=
  (∀ s : State, s.cstate = .idle → s.cartOk = true → LocksFree s →
    ∃ t u, entry [] s { s with trace := s.trace ++ [.cpuReset] } = some t ∧ control t = control s ∧
      playEntry s { t with trace := t.trace ++ [.apuPlay] } = some u ∧ control u = control s ∧
      exec .clkStart s = .next { u with audioPlay := true, tPrev := s.port.inputs.now, batchCnt := 0, slot := .top,
                                        cstate := .running } ∧
      (s.port.inputs.acts = .done → s.port.inputs.playActs = .done →
        u = { s with trace := s.trace ++ [.cpuReset, .apuPlay] })) ∧
  (∀ s : State, s.cstate ≠ .idle ∨ s.cartOk = false → exec .clkStart s = .next s)

/-- R197: `shutdown_latch <- 1` and nothing else, in every `cstate`. -/
def Obligations.ClockShutdown : Prop :=
  ∀ s : State, exec .clkShutdown s = .next { s with shutdownLatch := true }

/-- R188: the shutdown poll. -/
def Obligations.SeqTop : Prop :=
  ∀ s : State,
    (s.shutdownLatch = true → exec .seqTop s = .next { s with cstate := .stopping }) ∧
    (s.shutdownLatch = false → exec .seqTop s = .next { s with slot := .cpu })

/-- R189: the line is sampled before the step, `run_next` is called once with it, `n_cpu` counts, the slot moves on. -/
def Obligations.SeqCpu : Prop :=
  ∀ s : State, LocksFree s →
    ∃ t, entry [] s { s with trace := s.trace ++ [.runNext (irqPending s)] } = some t ∧ control t = control s ∧
      exec .seqCpu s = .next { t with nCpu := s.nCpu + 1, slot := .apu }

/-- R190: the audio unit is ticked when the flag is set; the flag is flipped on every iteration. -/
def Obligations.SeqApu : Prop :=
  (∀ s : State, s.apuPhase = true → LocksFree s →
    ∃ t, entry [.apu] s { s with trace := s.trace ++ [.apuTick] } = some t ∧ control t = control s ∧
      exec .seqApu s = .next { t with nApu := s.nApu + 1, apuPhase := false, slot := .ppu0 }) ∧
  (∀ s : State, s.apuPhase = false → exec .seqApu s = .next { s with apuPhase := true, slot := .ppu0 })

/-- R191, R192: the first and the second picture tick. -/
def Obligations.SeqPpuFirst : Prop :=
  ∀ s : State, LocksFree s →
    ∃ t, entry [.ppu] s { s with trace := s.trace ++ [.ppuTick] } = some t ∧ control t = control s ∧
      exec .seqPpu0 s = .next { t with nPpu := s.nPpu + 1, slot := .ppu1 } ∧
      exec .seqPpu1 s = .next { t with nPpu := s.nPpu + 1, slot := .ppu2 }

/-- R193: the third picture tick and the end of the iteration. -/
def Obligations.SeqPpuLast : Prop :=
  ∀ s : State, LocksFree s →
    ∃ t, entry [.ppu] s { s with trace := s.trace ++ [.ppuTick] } = some t ∧ control t = control s ∧
      exec .seqPpu2 s = .next { t with nPpu := s.nPpu + 1, batchCnt := s.batchCnt + 1,
                                       slot := if s.batchCnt + 1 = s.cfg.batch then .pace else .cpu }

/-- R194, R195, R201: pacing, with the times R31 and R195 admit: `t_prev <= now <= wake`. -/
def Obligations.SeqPace : Prop :=
  ∀ s : State, s.tPrev.toNat ≤ s.port.inputs.now.toNat → s.port.inputs.now.toNat ≤ s.port.inputs.wake.toNat →
    let elapsed := s.port.inputs.now.toNat - s.tPrev.toNat
    (elapsed < s.cfg.budgetNs →
      exec .seqPace s = .next { s with tPrev := s.port.inputs.wake, batchCnt := 0, slot := .top,
                                       trace := s.trace ++ [.sleep (s.cfg.budgetNs - elapsed)] }) ∧
    (s.cfg.budgetNs ≤ elapsed →
      exec .seqPace s = .next { s with tPrev := s.port.inputs.wake, batchCnt := 0, slot := .top,
                                       trace := s.trace ++ [.sleep 0, .event (.overrun (elapsed - s.cfg.budgetNs))] })

/-- The model's choice (log entry 12, from R31 and R195): whatever times are presented, `t_prev` never goes back, the
sleep is at most `BUDGET_NS`, and nothing else changes. -/
def Obligations.SeqPaceAnyClock : Prop :=
  ∀ s : State, ∃ t, exec .seqPace s = .next t ∧ s.tPrev.toNat ≤ t.tPrev.toNat ∧ t.slot = .top ∧ t.batchCnt = 0 ∧
    silent { t with tPrev := s.tPrev, batchCnt := s.batchCnt, slot := s.slot } = silent s ∧
    ∃ ns rest, t.trace = s.trace ++ .sleep ns :: rest ∧ ns ≤ s.cfg.budgetNs

/-- R196, R198: `SEQ.DRAIN` releases the audio output and stops; `SEQ.IDLE` and `SEQ.HALT` do nothing. -/
def Obligations.SeqOutsideRunning : Prop :=
  ∀ s : State,
    exec .seqDrain s = .next { s with audioPlay := false, cstate := .stopped } ∧
    exec .seqIdle s = .next s ∧ exec .seqHalt s = .next s

/-- R185: the complete transition table of `cstate`, over every step of every state. -/
def Obligations.CoordinatorTransitions : Prop :=
  ∀ s t : State, step s = .next t → t.cstate ≠ s.cstate →
    (s.cstate = .idle ∧ t.cstate = .running ∧ s.cartOk = true ∧ fetch s = .ok .clkStart) ∨
    (s.cstate = .running ∧ t.cstate = .stopping ∧ s.slot = .top ∧ s.shutdownLatch = true ∧
      (fetch s = .ok .seqTop ∨ fetch s = .ok .clkTick)) ∨
    (s.cstate = .stopping ∧ t.cstate = .stopped ∧ (fetch s = .ok .seqDrain ∨ fetch s = .ok .clkTick))

/-- R199, R200: five turns of the emulation agent from slot `CPU` are one iteration: one processor step, the audio tick
if the flag is set, three picture ticks, whatever the collaborators do. That a step with nothing presented is such a
turn, with free inputs, is the model's choice, log entry 2. -/
def Obligations.Iteration : Prop :=
  ∀ s : State, LocksFree s → s.inbox = [] → s.cstate = .running → s.slot = .cpu →
    ∃ t, core.run 5 s = .next t ∧ t.nCpu = s.nCpu + 1 ∧ t.nPpu = s.nPpu + 3 ∧
      t.nApu = s.nApu + (if s.apuPhase then 1 else 0) ∧ t.apuPhase = !s.apuPhase ∧ t.batchCnt = s.batchCnt + 1 ∧
      t.slot = (if s.batchCnt + 1 = s.cfg.batch then .pace else .cpu) ∧ t.cstate = .running ∧ t.tPrev = s.tPrev

/-- R202: after the shutdown signal the agent, left to itself, reaches `Stopped` within `5 * BATCH + 1` micro-operations
of `Running`, `SEQ.TOP` and `SEQ.DRAIN`, and the audio output is released. That a step with nothing presented is a turn of that
agent, with free inputs, is the model's choice, log entry 2. -/
def Obligations.ShutdownLatency : Prop :=
  ∀ s : State, Inv s → s.inbox = [] → s.cstate = .running → s.shutdownLatch = true →
    ∃ n t, n ≤ 5 * s.cfg.batch + 3 ∧ core.run n s = .next t ∧ t.cstate = .stopped ∧ t.audioPlay = false

/-- R199: between any two iteration boundaries of any run, three picture ticks per processor step and, per two steps,
one audio tick, the odd one counted when the window starts with the flag set. -/
def Obligations.TickRatio : Prop :=
  ∀ (k : Nat) (s t : State), Inv s → AtBoundary s → core.run k s = .next t → AtBoundary t →
    s.nCpu ≤ t.nCpu ∧ t.nPpu = s.nPpu + 3 * (t.nCpu - s.nCpu) ∧
      t.nApu = s.nApu + (if s.apuPhase then (t.nCpu - s.nCpu + 1) / 2 else (t.nCpu - s.nCpu) / 2)

/-! ## Invariants -/

/-- R51 (a) to (f), made inductive, with the canonical form of the stores and the ranges of R20: every step keeps it. -/
def Obligations.StepKeepsInvariant : Prop :=
  ∀ s t : State, Inv s → step s = .next t → Inv t

/-- R50, R51: the invariant holds after power-on with any legal parameters, with or without a cartridge, so at
`State.reset`, whose parameters and cartridge are the model's choice, log entries 10 and 11. -/
def Obligations.ResetInvariant : Prop :=
  (∀ (p : Params) (ok : Bool), p.valid = true → Inv (State.powerOn p ok)) ∧ Inv State.reset

/-- R51 (g), (h): `shutdown_latch` stays 1 and `SRC` never shrinks, over every step of every state. -/
def Obligations.StickyState : Prop :=
  ∀ s t : State, step s = .next t → (s.shutdownLatch = true → t.shutdownLatch = true) ∧ s.src <+: t.src

/-- R9, R32, R43: no step changes a parameter or `cart_ok`. The recorded outputs, the model's own field (log entry 4), are
never taken back. -/
def Obligations.ParametersConstant : Prop :=
  ∀ s t : State, step s = .next t → t.cfg = s.cfg ∧ t.cartOk = s.cartOk ∧ s.trace <+: t.trace

/-- R50: every field the spec gives a power-on value. R32: `cart_ok` says whether loading succeeded. R240, R242: a failure
is reported at power-on, once, and nothing else is. -/
def Obligations.ResetValues : Prop :=
  ∀ (p : Params) (ok : Bool),
    let s := State.powerOn p ok
    s.cstate = .idle ∧ s.slot = .top ∧ s.batchCnt = 0 ∧ s.apuPhase = false ∧ s.shutdownLatch = false ∧
    s.audioPlay = false ∧ s.tPrev = 0#64 ∧ s.nCpu = 0 ∧ s.nPpu = 0 ∧ s.nApu = 0 ∧ s.src = [] ∧
    irqPending s = false ∧ s.imgLock = .free ∧ s.ctrlLock = .free ∧
    (∀ st i, readCell st i s = Config.memInit st i) ∧
    s.cartOk = ok ∧ s.trace = if ok then [] else [.event .constructFail]

/-! ## Shared Frame State -/

/-- R220: the bytes land at their offsets, everything else is unchanged; out of range (or, the model's choice of log
entry 14, with no byte) nothing changes and the event carries the word. -/
def Obligations.ImageWrite : Prop :=
  (∀ s : State, s.imgLock = .free → s.port.inputs.imgBytes ≠ [] →
    s.port.inputs.imgOff + s.port.inputs.imgBytes.length ≤ s.cfg.imgSize →
    ∃ t, exec .imgWrite s = .next t ∧ withoutStores t = withoutStores s ∧ t.trace = s.trace ∧
      (∀ j, readCell .img j t =
        if s.port.inputs.imgOff ≤ j then (s.port.inputs.imgBytes[j - s.port.inputs.imgOff]?).getD (readCell .img j s)
        else readCell .img j s) ∧
      (∀ st j, st ≠ .img → readCell st j t = readCell st j s)) ∧
  (∀ s : State, s.port.inputs.imgBytes = [] ∨ s.cfg.imgSize < s.port.inputs.imgOff + s.port.inputs.imgBytes.length →
    exec .imgWrite s = .next { s with trace := s.trace ++ [.event (.opRefused s.port.opWord)] })

/-- R221: a copy of all `IMG_SIZE` cells at one instant; nothing else changes. -/
def Obligations.ImageRead : Prop :=
  ∀ s : State, s.imgLock = .free →
    ∃ bytes, exec .imgRead s = .next { s with trace := s.trace ++ [.image bytes] } ∧ bytes.length = s.cfg.imgSize ∧
      ∀ i, i < s.cfg.imgSize → bytes[i]? = some (readCell .img i s)

/-- R222: `CTRL <- value`. For a value wider than the data path, its low bits are the model's choice, log entry 17. -/
def Obligations.ControllerWrite : Prop :=
  ∀ s : State, s.ctrlLock = .free →
    ∃ t, exec .ctrlWrite s = .next t ∧ { t with ctrl := s.ctrl } = s ∧
      (s.port.inputs.ctrlVal < 2 ^ s.cfg.ctrlW → t.ctrl = s.port.inputs.ctrlVal) ∧ t.ctrl < 2 ^ s.cfg.ctrlW

/-- R223: the value of `CTRL`; nothing else changes. -/
def Obligations.ControllerRead : Prop :=
  ∀ s : State, s.ctrlLock = .free → exec .ctrlRead s = .next { s with trace := s.trace ++ [.ctrlValue s.ctrl] }

/-- R226, R136: an operation whose `ACQ` is not enabled waits. That while it waits it stands presented again, first in
`inbox`, and nothing else changes is the model's choice, log entry 6 (which marks it unsafe for a claim about a state
with a held lock); by `ResetInvariant` and `StepKeepsInvariant` no run from power-on reaches such a state. -/
def Obligations.LockWait : Prop :=
  (∀ s : State, s.imgLock ≠ .free →
    exec .imgRead s = .next { s with inbox := s.port :: s.inbox } ∧
    (s.port.inputs.imgBytes ≠ [] → s.port.inputs.imgOff + s.port.inputs.imgBytes.length ≤ s.cfg.imgSize →
      exec .imgWrite s = .next { s with inbox := s.port :: s.inbox })) ∧
  (∀ (s : State) (org : Origin) (v : Byte), s.ctrlLock ≠ .free →
    exec .ctrlRead s = .next { s with inbox := s.port :: s.inbox } ∧
    exec .ctrlWrite s = .next { s with inbox := s.port :: s.inbox } ∧
    (s.cartOk = true → exec (.cCtrlRd org) s = .next { s with inbox := s.port :: s.inbox } ∧
      exec (.cCtrlWr org v) s = .next { s with inbox := s.port :: s.inbox }))

/-! ## Device-access hazard -/

/-- R277: "a picture unit or audio unit is mutated either by a router call or by its own `clock()`, one at a time, never
both at once". Whatever the collaborators do meanwhile, an operation that ticks the unit, or one that is routed to it, is
the only mutation of that unit between its start and its end. That an activity presented with an access into the unit is
performed without that access is the model's choice, log entry 25. -/
def Obligations.OneMutationAtATime : Prop :=
  (∀ (i : Instr) (s : State), i ∈ [.seqPpu0, .seqPpu1, .seqPpu2] → LocksFree s →
    ∃ t new, exec i s = .next t ∧ t.trace = s.trace ++ new ∧ new.filter (mutates .ppu) = [.ppuTick]) ∧
  (∀ s : State, LocksFree s → s.apuPhase = true →
    ∃ t new, exec .seqApu s = .next t ∧ t.trace = s.trace ++ new ∧ new.filter (mutates .apu) = [.apuTick]) ∧
  (∀ (s : State) (w : OpWord) (i : Instr) (d : Device), unitOf w = 0#4 → decodeW w = .ok i →
    exclusiveUnit (route .c (arg16Of w)).1 = some d → s.cartOk = true → LocksFree s →
    ∃ t new, exec i s = .next t ∧ t.trace = s.trace ++ new ∧ (new.filter (mutates d)).length = 1)
end

