-- ==== Sys2Proof/Laws/Decode.lean ====
section
/-! SUPPORT. The fields of a word (R96, R98) and what a mask keeps of an address. -/

namespace Sys2Proof

@[simp] theorem unitOf_opWord (u f : BitVec 4) (a : BitVec 16) (v : Byte) : unitOf (opWord u f a v) = u := by
  apply BitVec.eq_of_getLsbD_eq; intro i hi
  simp only [unitOf, opWord, BitVec.getLsbD_extractLsb', BitVec.getLsbD_append]
  interval_cases i <;> simp

@[simp] theorem fnOf_opWord (u f : BitVec 4) (a : BitVec 16) (v : Byte) : fnOf (opWord u f a v) = f := by
  apply BitVec.eq_of_getLsbD_eq; intro i hi
  simp only [fnOf, opWord, BitVec.getLsbD_extractLsb', BitVec.getLsbD_append]
  interval_cases i <;> simp

@[simp] theorem arg16Of_opWord (u f : BitVec 4) (a : BitVec 16) (v : Byte) : arg16Of (opWord u f a v) = a := by
  apply BitVec.eq_of_getLsbD_eq; intro i hi
  simp only [arg16Of, opWord, BitVec.getLsbD_extractLsb', BitVec.getLsbD_append]
  interval_cases i <;> simp

@[simp] theorem arg8Of_opWord (u f : BitVec 4) (a : BitVec 16) (v : Byte) : arg8Of (opWord u f a v) = v := by
  apply BitVec.eq_of_getLsbD_eq; intro i hi
  simp only [arg8Of, opWord, BitVec.getLsbD_extractLsb', BitVec.getLsbD_append]
  interval_cases i <;> simp

/-- A word is its four fields (R96). -/
theorem opWord_fields (w : OpWord) : opWord (unitOf w) (fnOf w) (arg16Of w) (arg8Of w) = w := by
  apply BitVec.eq_of_getLsbD_eq; intro i hi
  simp only [opWord, unitOf, fnOf, arg16Of, arg8Of, BitVec.getLsbD_append, BitVec.getLsbD_extractLsb']
  interval_cases i <;> simp

/-- The function field of a bus word: `fn[3]` clear, the origin, the direction (R96). -/
theorem busFn_fields : ∀ (org : Origin) (we : Bool),
    (0#1 ++ org ++ BitVec.ofBool we : BitVec 4).getLsbD 3 = false ∧
    (0#1 ++ org ++ BitVec.ofBool we : BitVec 4).getLsbD 0 = we ∧
    orgOf (0#1 ++ org ++ BitVec.ofBool we) = org := by decide

/-- Two words masked alike are masked field by field. -/
theorem opWord_and (u f : BitVec 4) (a : BitVec 16) (v : Byte) (u' f' : BitVec 4) (a' : BitVec 16) (v' : Byte) :
    opWord u f a v &&& opWord u' f' a' v' = opWord (u &&& u') (f &&& f') (a &&& a') (v &&& v') := by
  simp only [opWord, ← BitVec.and_append]

/-- A mask of the bits from `k` up keeps the multiple of `2 ^ k`. -/
theorem and_highMask (a : Addr) (k : Nat) : a &&& (BitVec.allOnes 16 <<< k) = (a >>> k) <<< k := by
  apply BitVec.eq_of_getLsbD_eq; intro i hi
  simp only [BitVec.getLsbD_and, BitVec.getLsbD_shiftLeft, BitVec.getLsbD_allOnes, BitVec.getLsbD_ushiftRight]
  by_cases h : i < k
  · simp [h]
  · have : i - k < 16 := by omega
    have h2 : k + (i - k) = i := by omega
    simp [h, hi, this, h2]

/-- An address of an aligned block, under the block's mask, is the block's base (R104). -/
theorem and_block {a : Addr} (k c : Nat) (h : a.toNat / 2 ^ k = c) :
    a &&& (BitVec.allOnes 16 <<< k) = BitVec.ofNat 16 c <<< k := by
  rw [and_highMask]
  congr 1
  apply BitVec.eq_of_toNat_eq
  have hc : c < 2 ^ 16 := by
    rw [← h]; exact lt_of_le_of_lt (Nat.div_le_self _ _) a.isLt
  simp only [BitVec.toNat_ushiftRight, Nat.shiftRight_eq_div_pow, h, BitVec.toNat_ofNat]
  exact (Nat.mod_eq_of_lt hc).symm

/-- The fold of space `P` drops address bits 15 and 14 (R63, R92). -/
theorem toNat_pspace (a : Addr) : (a &&& Config.pspaceMask).toNat = a.toNat % 16384 := by
  simpa [Config.pspaceMask] using Nat.and_two_pow_sub_one_eq_mod a.toNat 14

/-! ## The words of bus operations -/

theorem decodeBus_busWord_read (rd : Origin → Addr → Instr) (wr : Origin → Addr → Byte → Instr) (u : BitVec 4)
    (org : Origin) (a : Addr) (v : Byte) : decodeBus rd wr (busWord u org false a v) = .ok (rd org a) := by
  obtain ⟨h1, h2, h3⟩ := busFn_fields org false
  simp only [busWord, decodeBus, fnOf_opWord, arg16Of_opWord, arg8Of_opWord, h1, h2, h3]; rfl

theorem decodeBus_busWord_write (rd : Origin → Addr → Instr) (wr : Origin → Addr → Byte → Instr) (u : BitVec 4)
    (org : Origin) (a : Addr) (v : Byte) : decodeBus rd wr (busWord u org true a v) = .ok (wr org a v) := by
  obtain ⟨h1, h2, h3⟩ := busFn_fields org true
  simp only [busWord, decodeBus, fnOf_opWord, arg16Of_opWord, arg8Of_opWord, h1, h2, h3]; rfl

/-- A word with `fn[3]` clear is the bus word of its fields. -/
theorem busWord_fields {w : OpWord} (h : (fnOf w).getLsbD 3 = false) :
    busWord (unitOf w) (orgOf (fnOf w)) ((fnOf w).getLsbD 0) (arg16Of w) (arg8Of w) = w := by
  have key : ∀ fn : BitVec 4, fn.getLsbD 3 = false → 0#1 ++ orgOf fn ++ BitVec.ofBool (fn.getLsbD 0) = fn := by
    decide
  rw [busWord, key _ h]
  exact opWord_fields w

/-- What a decoded bus word is. -/
theorem decodeBus_ok {rd : Origin → Addr → Instr} {wr : Origin → Addr → Byte → Instr} {w : OpWord} {i : Instr}
    (h : decodeBus rd wr w = .ok i) : (fnOf w).getLsbD 3 = false ∧
      i = if (fnOf w).getLsbD 0 then wr (orgOf (fnOf w)) (arg16Of w) (arg8Of w) else rd (orgOf (fnOf w)) (arg16Of w) := by
  unfold decodeBus at h
  by_cases h1 : (fnOf w).getLsbD 3 = true
  · rw [if_pos h1] at h
    cases h
  · rw [if_neg h1] at h
    refine ⟨by simpa using h1, ?_⟩
    by_cases h2 : (fnOf w).getLsbD 0 = true
    · rw [if_pos h2] at h ⊢
      exact (Except.ok.inj h).symm
    · rw [if_neg h2] at h ⊢
      exact (Except.ok.inj h).symm

/-- A word masked to its unit and function. -/
theorem and_unitFn (w : OpWord) : w &&& 0xFF000000#32 = opWord (unitOf w) (fnOf w) 0#16 0#8 := by
  have hm : (0xFF000000#32 : OpWord) = opWord 15#4 15#4 0#16 0#8 := by decide
  have hx : ∀ u : BitVec 4, u &&& 15#4 = u := by decide
  conv_lhs => rw [← opWord_fields w, hm, opWord_and, hx, hx]
  simp

/-! ## One case per row: what the decoder of a space answers (R62, R63, R91, R92)

To show something of the decoded operation, show it of each row for the addresses of the row. -/

theorem decodeCRead_elim {P : Instr → Prop} {org : Origin} {a : Addr}
    (cRamRd : inRange 0x0000 0x1FFF a = true → P (.cRamRd org a))
    (cPpuregRd : inRange 0x2000 0x3FFF a = true → P (.cPpuregRd org a))
    (cApuRd4000 : inRange 0x4000 0x400F a = true → P (.cApuRd4000 org a))
    (cApuRd4010 : inRange 0x4010 0x4013 a = true → P (.cApuRd4010 org a))
    (cOamdmaRd : a = 0x4014#16 → P (.cOamdmaRd org))
    (cApuRd4015 : a = 0x4015#16 → P (.cApuRd4015 org))
    (cCtrlRd : a = 0x4016#16 → P (.cCtrlRd org))
    (cApuRd4017 : a = 0x4017#16 → P (.cApuRd4017 org))
    (cNoneRd4018 : inRange 0x4018 0x401F a = true → P (.cNoneRd4018 org a))
    (cNoneRd4020 : inRange 0x4020 0x403F a = true → P (.cNoneRd4020 org a))
    (cNoneRd4040 : inRange 0x4040 0x407F a = true → P (.cNoneRd4040 org a))
    (cNoneRd4080 : inRange 0x4080 0x40FF a = true → P (.cNoneRd4080 org a))
    (cNoneRd4100 : inRange 0x4100 0x41FF a = true → P (.cNoneRd4100 org a))
    (cNoneRd4200 : inRange 0x4200 0x43FF a = true → P (.cNoneRd4200 org a))
    (cNoneRd4400 : inRange 0x4400 0x47FF a = true → P (.cNoneRd4400 org a))
    (cNoneRd4800 : inRange 0x4800 0x4FFF a = true → P (.cNoneRd4800 org a))
    (cNoneRd5000 : inRange 0x5000 0x5FFF a = true → P (.cNoneRd5000 org a))
    (cCartRd6000 : inRange 0x6000 0x7FFF a = true → P (.cCartRd6000 org a))
    (cCartRd8000 : inRange 0x8000 0xFFFF a = true → P (.cCartRd8000 org a))
    : P (decodeCRead org a) := by
  unfold decodeCRead
  by_cases h0 : a.toNat ≤ 0x1FFF
  · rw [if_pos h0]; exact cRamRd (by simp only [inRange, Bool.and_eq_true, decide_eq_true_eq]; omega)
  rw [if_neg h0]
  by_cases h1 : a.toNat ≤ 0x3FFF
  · rw [if_pos h1]; exact cPpuregRd (by simp only [inRange, Bool.and_eq_true, decide_eq_true_eq]; omega)
  rw [if_neg h1]
  by_cases h2 : a.toNat ≤ 0x400F
  · rw [if_pos h2]; exact cApuRd4000 (by simp only [inRange, Bool.and_eq_true, decide_eq_true_eq]; omega)
  rw [if_neg h2]
  by_cases h3 : a.toNat ≤ 0x4013
  · rw [if_pos h3]; exact cApuRd4010 (by simp only [inRange, Bool.and_eq_true, decide_eq_true_eq]; omega)
  rw [if_neg h3]
  by_cases h4 : a.toNat ≤ 0x4014
  · rw [if_pos h4]; exact cOamdmaRd (BitVec.eq_of_toNat_eq (by simp only [BitVec.toNat_ofNat]; omega))
  rw [if_neg h4]
  by_cases h5 : a.toNat ≤ 0x4015
  · rw [if_pos h5]; exact cApuRd4015 (BitVec.eq_of_toNat_eq (by simp only [BitVec.toNat_ofNat]; omega))
  rw [if_neg h5]
  by_cases h6 : a.toNat ≤ 0x4016
  · rw [if_pos h6]; exact cCtrlRd (BitVec.eq_of_toNat_eq (by simp only [BitVec.toNat_ofNat]; omega))
  rw [if_neg h6]
  by_cases h7 : a.toNat ≤ 0x4017
  · rw [if_pos h7]; exact cApuRd4017 (BitVec.eq_of_toNat_eq (by simp only [BitVec.toNat_ofNat]; omega))
  rw [if_neg h7]
  by_cases h8 : a.toNat ≤ 0x401F
  · rw [if_pos h8]; exact cNoneRd4018 (by simp only [inRange, Bool.and_eq_true, decide_eq_true_eq]; omega)
  rw [if_neg h8]
  by_cases h9 : a.toNat ≤ 0x403F
  · rw [if_pos h9]; exact cNoneRd4020 (by simp only [inRange, Bool.and_eq_true, decide_eq_true_eq]; omega)
  rw [if_neg h9]
  by_cases h10 : a.toNat ≤ 0x407F
  · rw [if_pos h10]; exact cNoneRd4040 (by simp only [inRange, Bool.and_eq_true, decide_eq_true_eq]; omega)
  rw [if_neg h10]
  by_cases h11 : a.toNat ≤ 0x40FF
  · rw [if_pos h11]; exact cNoneRd4080 (by simp only [inRange, Bool.and_eq_true, decide_eq_true_eq]; omega)
  rw [if_neg h11]
  by_cases h12 : a.toNat ≤ 0x41FF
  · rw [if_pos h12]; exact cNoneRd4100 (by simp only [inRange, Bool.and_eq_true, decide_eq_true_eq]; omega)
  rw [if_neg h12]
  by_cases h13 : a.toNat ≤ 0x43FF
  · rw [if_pos h13]; exact cNoneRd4200 (by simp only [inRange, Bool.and_eq_true, decide_eq_true_eq]; omega)
  rw [if_neg h13]
  by_cases h14 : a.toNat ≤ 0x47FF
  · rw [if_pos h14]; exact cNoneRd4400 (by simp only [inRange, Bool.and_eq_true, decide_eq_true_eq]; omega)
  rw [if_neg h14]
  by_cases h15 : a.toNat ≤ 0x4FFF
  · rw [if_pos h15]; exact cNoneRd4800 (by simp only [inRange, Bool.and_eq_true, decide_eq_true_eq]; omega)
  rw [if_neg h15]
  by_cases h16 : a.toNat ≤ 0x5FFF
  · rw [if_pos h16]; exact cNoneRd5000 (by simp only [inRange, Bool.and_eq_true, decide_eq_true_eq]; omega)
  rw [if_neg h16]
  by_cases h17 : a.toNat ≤ 0x7FFF
  · rw [if_pos h17]; exact cCartRd6000 (by simp only [inRange, Bool.and_eq_true, decide_eq_true_eq]; omega)
  rw [if_neg h17]
  have := a.isLt
  exact cCartRd8000 (by simp only [inRange, Bool.and_eq_true, decide_eq_true_eq]; omega)

theorem decodeCWrite_elim {P : Instr → Prop} {org : Origin} {a : Addr} {v : Byte}
    (cRamWr : inRange 0x0000 0x1FFF a = true → P (.cRamWr org a v))
    (cPpuregWr : inRange 0x2000 0x3FFF a = true → P (.cPpuregWr org a v))
    (cApuWr4000 : inRange 0x4000 0x400F a = true → P (.cApuWr4000 org a v))
    (cApuWr4010 : inRange 0x4010 0x4013 a = true → P (.cApuWr4010 org a v))
    (cOamdmaWr : a = 0x4014#16 → P (.cOamdmaWr org v))
    (cApuWr4015 : a = 0x4015#16 → P (.cApuWr4015 org v))
    (cCtrlWr : a = 0x4016#16 → P (.cCtrlWr org v))
    (cApuWr4017 : a = 0x4017#16 → P (.cApuWr4017 org v))
    (cNoneWr4018 : inRange 0x4018 0x401F a = true → P (.cNoneWr4018 org a v))
    (cNoneWr4020 : inRange 0x4020 0x403F a = true → P (.cNoneWr4020 org a v))
    (cNoneWr4040 : inRange 0x4040 0x407F a = true → P (.cNoneWr4040 org a v))
    (cNoneWr4080 : inRange 0x4080 0x40FF a = true → P (.cNoneWr4080 org a v))
    (cNoneWr4100 : inRange 0x4100 0x41FF a = true → P (.cNoneWr4100 org a v))
    (cNoneWr4200 : inRange 0x4200 0x43FF a = true → P (.cNoneWr4200 org a v))
    (cNoneWr4400 : inRange 0x4400 0x47FF a = true → P (.cNoneWr4400 org a v))
    (cNoneWr4800 : inRange 0x4800 0x4FFF a = true → P (.cNoneWr4800 org a v))
    (cNoneWr5000 : inRange 0x5000 0x5FFF a = true → P (.cNoneWr5000 org a v))
    (cCartWr6000 : inRange 0x6000 0x7FFF a = true → P (.cCartWr6000 org a v))
    (cCartWr8000 : inRange 0x8000 0xFFFF a = true → P (.cCartWr8000 org a v))
    : P (decodeCWrite org a v) := by
  unfold decodeCWrite
  by_cases h0 : a.toNat ≤ 0x1FFF
  · rw [if_pos h0]; exact cRamWr (by simp only [inRange, Bool.and_eq_true, decide_eq_true_eq]; omega)
  rw [if_neg h0]
  by_cases h1 : a.toNat ≤ 0x3FFF
  · rw [if_pos h1]; exact cPpuregWr (by simp only [inRange, Bool.and_eq_true, decide_eq_true_eq]; omega)
  rw [if_neg h1]
  by_cases h2 : a.toNat ≤ 0x400F
  · rw [if_pos h2]; exact cApuWr4000 (by simp only [inRange, Bool.and_eq_true, decide_eq_true_eq]; omega)
  rw [if_neg h2]
  by_cases h3 : a.toNat ≤ 0x4013
  · rw [if_pos h3]; exact cApuWr4010 (by simp only [inRange, Bool.and_eq_true, decide_eq_true_eq]; omega)
  rw [if_neg h3]
  by_cases h4 : a.toNat ≤ 0x4014
  · rw [if_pos h4]; exact cOamdmaWr (BitVec.eq_of_toNat_eq (by simp only [BitVec.toNat_ofNat]; omega))
  rw [if_neg h4]
  by_cases h5 : a.toNat ≤ 0x4015
  · rw [if_pos h5]; exact cApuWr4015 (BitVec.eq_of_toNat_eq (by simp only [BitVec.toNat_ofNat]; omega))
  rw [if_neg h5]
  by_cases h6 : a.toNat ≤ 0x4016
  · rw [if_pos h6]; exact cCtrlWr (BitVec.eq_of_toNat_eq (by simp only [BitVec.toNat_ofNat]; omega))
  rw [if_neg h6]
  by_cases h7 : a.toNat ≤ 0x4017
  · rw [if_pos h7]; exact cApuWr4017 (BitVec.eq_of_toNat_eq (by simp only [BitVec.toNat_ofNat]; omega))
  rw [if_neg h7]
  by_cases h8 : a.toNat ≤ 0x401F
  · rw [if_pos h8]; exact cNoneWr4018 (by simp only [inRange, Bool.and_eq_true, decide_eq_true_eq]; omega)
  rw [if_neg h8]
  by_cases h9 : a.toNat ≤ 0x403F
  · rw [if_pos h9]; exact cNoneWr4020 (by simp only [inRange, Bool.and_eq_true, decide_eq_true_eq]; omega)
  rw [if_neg h9]
  by_cases h10 : a.toNat ≤ 0x407F
  · rw [if_pos h10]; exact cNoneWr4040 (by simp only [inRange, Bool.and_eq_true, decide_eq_true_eq]; omega)
  rw [if_neg h10]
  by_cases h11 : a.toNat ≤ 0x40FF
  · rw [if_pos h11]; exact cNoneWr4080 (by simp only [inRange, Bool.and_eq_true, decide_eq_true_eq]; omega)
  rw [if_neg h11]
  by_cases h12 : a.toNat ≤ 0x41FF
  · rw [if_pos h12]; exact cNoneWr4100 (by simp only [inRange, Bool.and_eq_true, decide_eq_true_eq]; omega)
  rw [if_neg h12]
  by_cases h13 : a.toNat ≤ 0x43FF
  · rw [if_pos h13]; exact cNoneWr4200 (by simp only [inRange, Bool.and_eq_true, decide_eq_true_eq]; omega)
  rw [if_neg h13]
  by_cases h14 : a.toNat ≤ 0x47FF
  · rw [if_pos h14]; exact cNoneWr4400 (by simp only [inRange, Bool.and_eq_true, decide_eq_true_eq]; omega)
  rw [if_neg h14]
  by_cases h15 : a.toNat ≤ 0x4FFF
  · rw [if_pos h15]; exact cNoneWr4800 (by simp only [inRange, Bool.and_eq_true, decide_eq_true_eq]; omega)
  rw [if_neg h15]
  by_cases h16 : a.toNat ≤ 0x5FFF
  · rw [if_pos h16]; exact cNoneWr5000 (by simp only [inRange, Bool.and_eq_true, decide_eq_true_eq]; omega)
  rw [if_neg h16]
  by_cases h17 : a.toNat ≤ 0x7FFF
  · rw [if_pos h17]; exact cCartWr6000 (by simp only [inRange, Bool.and_eq_true, decide_eq_true_eq]; omega)
  rw [if_neg h17]
  have := a.isLt
  exact cCartWr8000 (by simp only [inRange, Bool.and_eq_true, decide_eq_true_eq]; omega)

theorem decodePRead_elim {P : Instr → Prop} {org : Origin} {a : Addr}
    (pCartRd : inRange 0x0000 0x1FFF (a &&& Config.pspaceMask) = true → P (.pCartRd org a))
    (pVramRd2000 : inRange 0x2000 0x2FFF (a &&& Config.pspaceMask) = true → P (.pVramRd2000 org a))
    (pVramRd3000 : inRange 0x3000 0x37FF (a &&& Config.pspaceMask) = true → P (.pVramRd3000 org a))
    (pVramRd3800 : inRange 0x3800 0x3BFF (a &&& Config.pspaceMask) = true → P (.pVramRd3800 org a))
    (pVramRd3C00 : inRange 0x3C00 0x3DFF (a &&& Config.pspaceMask) = true → P (.pVramRd3C00 org a))
    (pVramRd3E00 : inRange 0x3E00 0x3EFF (a &&& Config.pspaceMask) = true → P (.pVramRd3E00 org a))
    (pPalRd : inRange 0x3F00 0x3FFF (a &&& Config.pspaceMask) = true → P (.pPalRd org a))
    : P (decodePRead org a) := by
  unfold decodePRead
  generalize hb : a &&& Config.pspaceMask = b at *
  have hlt : b.toNat < 0x4000 := by rw [← hb, toNat_pspace]; exact Nat.mod_lt _ (by decide)
  show P (ite _ _ _)
  by_cases h0 : b.toNat ≤ 0x1FFF
  · rw [if_pos h0]; exact pCartRd (by simp only [inRange, Bool.and_eq_true, decide_eq_true_eq]; omega)
  rw [if_neg h0]
  by_cases h1 : b.toNat ≤ 0x2FFF
  · rw [if_pos h1]; exact pVramRd2000 (by simp only [inRange, Bool.and_eq_true, decide_eq_true_eq]; omega)
  rw [if_neg h1]
  by_cases h2 : b.toNat ≤ 0x37FF
  · rw [if_pos h2]; exact pVramRd3000 (by simp only [inRange, Bool.and_eq_true, decide_eq_true_eq]; omega)
  rw [if_neg h2]
  by_cases h3 : b.toNat ≤ 0x3BFF
  · rw [if_pos h3]; exact pVramRd3800 (by simp only [inRange, Bool.and_eq_true, decide_eq_true_eq]; omega)
  rw [if_neg h3]
  by_cases h4 : b.toNat ≤ 0x3DFF
  · rw [if_pos h4]; exact pVramRd3C00 (by simp only [inRange, Bool.and_eq_true, decide_eq_true_eq]; omega)
  rw [if_neg h4]
  by_cases h5 : b.toNat ≤ 0x3EFF
  · rw [if_pos h5]; exact pVramRd3E00 (by simp only [inRange, Bool.and_eq_true, decide_eq_true_eq]; omega)
  rw [if_neg h5]
  exact pPalRd (by simp only [inRange, Bool.and_eq_true, decide_eq_true_eq]; omega)

theorem decodePWrite_elim {P : Instr → Prop} {org : Origin} {a : Addr} {v : Byte}
    (pCartWr : inRange 0x0000 0x1FFF (a &&& Config.pspaceMask) = true → P (.pCartWr org a v))
    (pVramWr2000 : inRange 0x2000 0x2FFF (a &&& Config.pspaceMask) = true → P (.pVramWr2000 org a v))
    (pVramWr3000 : inRange 0x3000 0x37FF (a &&& Config.pspaceMask) = true → P (.pVramWr3000 org a v))
    (pVramWr3800 : inRange 0x3800 0x3BFF (a &&& Config.pspaceMask) = true → P (.pVramWr3800 org a v))
    (pVramWr3C00 : inRange 0x3C00 0x3DFF (a &&& Config.pspaceMask) = true → P (.pVramWr3C00 org a v))
    (pVramWr3E00 : inRange 0x3E00 0x3EFF (a &&& Config.pspaceMask) = true → P (.pVramWr3E00 org a v))
    (pPalWr : inRange 0x3F00 0x3FFF (a &&& Config.pspaceMask) = true → P (.pPalWr org a v))
    : P (decodePWrite org a v) := by
  unfold decodePWrite
  generalize hb : a &&& Config.pspaceMask = b at *
  have hlt : b.toNat < 0x4000 := by rw [← hb, toNat_pspace]; exact Nat.mod_lt _ (by decide)
  show P (ite _ _ _)
  by_cases h0 : b.toNat ≤ 0x1FFF
  · rw [if_pos h0]; exact pCartWr (by simp only [inRange, Bool.and_eq_true, decide_eq_true_eq]; omega)
  rw [if_neg h0]
  by_cases h1 : b.toNat ≤ 0x2FFF
  · rw [if_pos h1]; exact pVramWr2000 (by simp only [inRange, Bool.and_eq_true, decide_eq_true_eq]; omega)
  rw [if_neg h1]
  by_cases h2 : b.toNat ≤ 0x37FF
  · rw [if_pos h2]; exact pVramWr3000 (by simp only [inRange, Bool.and_eq_true, decide_eq_true_eq]; omega)
  rw [if_neg h2]
  by_cases h3 : b.toNat ≤ 0x3BFF
  · rw [if_pos h3]; exact pVramWr3800 (by simp only [inRange, Bool.and_eq_true, decide_eq_true_eq]; omega)
  rw [if_neg h3]
  by_cases h4 : b.toNat ≤ 0x3DFF
  · rw [if_pos h4]; exact pVramWr3C00 (by simp only [inRange, Bool.and_eq_true, decide_eq_true_eq]; omega)
  rw [if_neg h4]
  by_cases h5 : b.toNat ≤ 0x3EFF
  · rw [if_pos h5]; exact pVramWr3E00 (by simp only [inRange, Bool.and_eq_true, decide_eq_true_eq]; omega)
  rw [if_neg h5]
  exact pPalWr (by simp only [inRange, Bool.and_eq_true, decide_eq_true_eq]; omega)

end Sys2Proof
end

