-- ==== Sys2Proof/Laws/State.lean ====
section
/-! SUPPORT. What each update of the state leaves in each field, by `rfl`: outputs, stores, locks, the wait. -/

namespace Sys2Proof.Machine

/-! ## `emit` -/

@[simp] theorem emit_ram (o : Output) (s : State) : (emit o s).ram = s.ram := rfl
@[simp] theorem emit_vram (o : Output) (s : State) : (emit o s).vram = s.vram := rfl
@[simp] theorem emit_pal (o : Output) (s : State) : (emit o s).pal = s.pal := rfl
@[simp] theorem emit_img (o : Output) (s : State) : (emit o s).img = s.img := rfl
@[simp] theorem emit_src (o : Output) (s : State) : (emit o s).src = s.src := rfl
@[simp] theorem emit_cstate (o : Output) (s : State) : (emit o s).cstate = s.cstate := rfl
@[simp] theorem emit_slot (o : Output) (s : State) : (emit o s).slot = s.slot := rfl
@[simp] theorem emit_batchCnt (o : Output) (s : State) : (emit o s).batchCnt = s.batchCnt := rfl
@[simp] theorem emit_apuPhase (o : Output) (s : State) : (emit o s).apuPhase = s.apuPhase := rfl
@[simp] theorem emit_shutdownLatch (o : Output) (s : State) : (emit o s).shutdownLatch = s.shutdownLatch := rfl
@[simp] theorem emit_audioPlay (o : Output) (s : State) : (emit o s).audioPlay = s.audioPlay := rfl
@[simp] theorem emit_tPrev (o : Output) (s : State) : (emit o s).tPrev = s.tPrev := rfl
@[simp] theorem emit_nCpu (o : Output) (s : State) : (emit o s).nCpu = s.nCpu := rfl
@[simp] theorem emit_nPpu (o : Output) (s : State) : (emit o s).nPpu = s.nPpu := rfl
@[simp] theorem emit_nApu (o : Output) (s : State) : (emit o s).nApu = s.nApu := rfl
@[simp] theorem emit_ctrl (o : Output) (s : State) : (emit o s).ctrl = s.ctrl := rfl
@[simp] theorem emit_imgLock (o : Output) (s : State) : (emit o s).imgLock = s.imgLock := rfl
@[simp] theorem emit_ctrlLock (o : Output) (s : State) : (emit o s).ctrlLock = s.ctrlLock := rfl
@[simp] theorem emit_req (o : Output) (s : State) : (emit o s).req = s.req := rfl
@[simp] theorem emit_cartOk (o : Output) (s : State) : (emit o s).cartOk = s.cartOk := rfl
@[simp] theorem emit_inbox (o : Output) (s : State) : (emit o s).inbox = s.inbox := rfl
@[simp] theorem emit_port (o : Output) (s : State) : (emit o s).port = s.port := rfl
@[simp] theorem emit_cfg (o : Output) (s : State) : (emit o s).cfg = s.cfg := rfl
@[simp] theorem emit_draws (o : Output) (s : State) : (emit o s).draws = s.draws := rfl
@[simp] theorem emit_trace (o : Output) (s : State) : (emit o s).trace = s.trace ++ [o] := rfl

/-! ## `withCells` and `writeCell` -/

@[simp] theorem writeCell_src (st : Store) (i : Nat) (v : Byte) (s : State) : (writeCell st i v s).src = s.src := by cases st <;> rfl
@[simp] theorem writeCell_cstate (st : Store) (i : Nat) (v : Byte) (s : State) : (writeCell st i v s).cstate = s.cstate := by cases st <;> rfl
@[simp] theorem writeCell_slot (st : Store) (i : Nat) (v : Byte) (s : State) : (writeCell st i v s).slot = s.slot := by cases st <;> rfl
@[simp] theorem writeCell_batchCnt (st : Store) (i : Nat) (v : Byte) (s : State) : (writeCell st i v s).batchCnt = s.batchCnt := by cases st <;> rfl
@[simp] theorem writeCell_apuPhase (st : Store) (i : Nat) (v : Byte) (s : State) : (writeCell st i v s).apuPhase = s.apuPhase := by cases st <;> rfl
@[simp] theorem writeCell_shutdownLatch (st : Store) (i : Nat) (v : Byte) (s : State) : (writeCell st i v s).shutdownLatch = s.shutdownLatch := by cases st <;> rfl
@[simp] theorem writeCell_audioPlay (st : Store) (i : Nat) (v : Byte) (s : State) : (writeCell st i v s).audioPlay = s.audioPlay := by cases st <;> rfl
@[simp] theorem writeCell_tPrev (st : Store) (i : Nat) (v : Byte) (s : State) : (writeCell st i v s).tPrev = s.tPrev := by cases st <;> rfl
@[simp] theorem writeCell_nCpu (st : Store) (i : Nat) (v : Byte) (s : State) : (writeCell st i v s).nCpu = s.nCpu := by cases st <;> rfl
@[simp] theorem writeCell_nPpu (st : Store) (i : Nat) (v : Byte) (s : State) : (writeCell st i v s).nPpu = s.nPpu := by cases st <;> rfl
@[simp] theorem writeCell_nApu (st : Store) (i : Nat) (v : Byte) (s : State) : (writeCell st i v s).nApu = s.nApu := by cases st <;> rfl
@[simp] theorem writeCell_ctrl (st : Store) (i : Nat) (v : Byte) (s : State) : (writeCell st i v s).ctrl = s.ctrl := by cases st <;> rfl
@[simp] theorem writeCell_imgLock (st : Store) (i : Nat) (v : Byte) (s : State) : (writeCell st i v s).imgLock = s.imgLock := by cases st <;> rfl
@[simp] theorem writeCell_ctrlLock (st : Store) (i : Nat) (v : Byte) (s : State) : (writeCell st i v s).ctrlLock = s.ctrlLock := by cases st <;> rfl
@[simp] theorem writeCell_req (st : Store) (i : Nat) (v : Byte) (s : State) : (writeCell st i v s).req = s.req := by cases st <;> rfl
@[simp] theorem writeCell_cartOk (st : Store) (i : Nat) (v : Byte) (s : State) : (writeCell st i v s).cartOk = s.cartOk := by cases st <;> rfl
@[simp] theorem writeCell_inbox (st : Store) (i : Nat) (v : Byte) (s : State) : (writeCell st i v s).inbox = s.inbox := by cases st <;> rfl
@[simp] theorem writeCell_port (st : Store) (i : Nat) (v : Byte) (s : State) : (writeCell st i v s).port = s.port := by cases st <;> rfl
@[simp] theorem writeCell_cfg (st : Store) (i : Nat) (v : Byte) (s : State) : (writeCell st i v s).cfg = s.cfg := by cases st <;> rfl
@[simp] theorem writeCell_draws (st : Store) (i : Nat) (v : Byte) (s : State) : (writeCell st i v s).draws = s.draws := by cases st <;> rfl
@[simp] theorem writeCell_trace (st : Store) (i : Nat) (v : Byte) (s : State) : (writeCell st i v s).trace = s.trace := by cases st <;> rfl
@[simp] theorem cells_withCells_same (st : Store) (m : Memory) (s : State) : cells (withCells st m s) st = m := by
  cases st <;> rfl
theorem cells_withCells_other {st st' : Store} (h : st' ≠ st) (m : Memory) (s : State) :
    cells (withCells st m s) st' = cells s st' := by
  cases st <;> cases st' <;> first | rfl | exact absurd rfl h
@[simp] theorem withCells_self (st : Store) (s : State) : withCells st (cells s st) s = s := by cases st <;> rfl
@[simp] theorem withCells_withCells (st : Store) (m m' : Memory) (s : State) :
    withCells st m' (withCells st m s) = withCells st m' s := by cases st <;> rfl
@[simp] theorem cells_emit (o : Output) (s : State) (st : Store) : cells (emit o s) st = cells s st := by
  cases st <;> rfl

/-! ## `setLock` -/

@[simp] theorem setLock_ram (l : LockId) (k : Lock) (s : State) : (setLock l k s).ram = s.ram := by cases l <;> rfl
@[simp] theorem setLock_vram (l : LockId) (k : Lock) (s : State) : (setLock l k s).vram = s.vram := by cases l <;> rfl
@[simp] theorem setLock_pal (l : LockId) (k : Lock) (s : State) : (setLock l k s).pal = s.pal := by cases l <;> rfl
@[simp] theorem setLock_img (l : LockId) (k : Lock) (s : State) : (setLock l k s).img = s.img := by cases l <;> rfl
@[simp] theorem setLock_src (l : LockId) (k : Lock) (s : State) : (setLock l k s).src = s.src := by cases l <;> rfl
@[simp] theorem setLock_cstate (l : LockId) (k : Lock) (s : State) : (setLock l k s).cstate = s.cstate := by cases l <;> rfl
@[simp] theorem setLock_slot (l : LockId) (k : Lock) (s : State) : (setLock l k s).slot = s.slot := by cases l <;> rfl
@[simp] theorem setLock_batchCnt (l : LockId) (k : Lock) (s : State) : (setLock l k s).batchCnt = s.batchCnt := by cases l <;> rfl
@[simp] theorem setLock_apuPhase (l : LockId) (k : Lock) (s : State) : (setLock l k s).apuPhase = s.apuPhase := by cases l <;> rfl
@[simp] theorem setLock_shutdownLatch (l : LockId) (k : Lock) (s : State) : (setLock l k s).shutdownLatch = s.shutdownLatch := by cases l <;> rfl
@[simp] theorem setLock_audioPlay (l : LockId) (k : Lock) (s : State) : (setLock l k s).audioPlay = s.audioPlay := by cases l <;> rfl
@[simp] theorem setLock_tPrev (l : LockId) (k : Lock) (s : State) : (setLock l k s).tPrev = s.tPrev := by cases l <;> rfl
@[simp] theorem setLock_nCpu (l : LockId) (k : Lock) (s : State) : (setLock l k s).nCpu = s.nCpu := by cases l <;> rfl
@[simp] theorem setLock_nPpu (l : LockId) (k : Lock) (s : State) : (setLock l k s).nPpu = s.nPpu := by cases l <;> rfl
@[simp] theorem setLock_nApu (l : LockId) (k : Lock) (s : State) : (setLock l k s).nApu = s.nApu := by cases l <;> rfl
@[simp] theorem setLock_ctrl (l : LockId) (k : Lock) (s : State) : (setLock l k s).ctrl = s.ctrl := by cases l <;> rfl
@[simp] theorem setLock_req (l : LockId) (k : Lock) (s : State) : (setLock l k s).req = s.req := by cases l <;> rfl
@[simp] theorem setLock_cartOk (l : LockId) (k : Lock) (s : State) : (setLock l k s).cartOk = s.cartOk := by cases l <;> rfl
@[simp] theorem setLock_inbox (l : LockId) (k : Lock) (s : State) : (setLock l k s).inbox = s.inbox := by cases l <;> rfl
@[simp] theorem setLock_port (l : LockId) (k : Lock) (s : State) : (setLock l k s).port = s.port := by cases l <;> rfl
@[simp] theorem setLock_cfg (l : LockId) (k : Lock) (s : State) : (setLock l k s).cfg = s.cfg := by cases l <;> rfl
@[simp] theorem setLock_draws (l : LockId) (k : Lock) (s : State) : (setLock l k s).draws = s.draws := by cases l <;> rfl
@[simp] theorem setLock_trace (l : LockId) (k : Lock) (s : State) : (setLock l k s).trace = s.trace := by cases l <;> rfl
@[simp] theorem lockOf_setLock (l : LockId) (k : Lock) (s : State) : lockOf l (setLock l k s) = k := by cases l <;> rfl
@[simp] theorem setLock_setLock (l : LockId) (k k' : Lock) (s : State) : setLock l k' (setLock l k s) = setLock l k' s := by
  cases l <;> rfl
@[simp] theorem setLock_lockOf (l : LockId) (s : State) : setLock l (lockOf l s) s = s := by cases l <;> rfl
@[simp] theorem cells_setLock (l : LockId) (k : Lock) (s : State) (st : Store) : cells (setLock l k s) st = cells s st := by
  cases l <;> cases st <;> rfl

/-! ## `wait` -/

@[simp] theorem wait_ram (s : State) : (wait s).ram = s.ram := rfl
@[simp] theorem wait_vram (s : State) : (wait s).vram = s.vram := rfl
@[simp] theorem wait_pal (s : State) : (wait s).pal = s.pal := rfl
@[simp] theorem wait_img (s : State) : (wait s).img = s.img := rfl
@[simp] theorem wait_src (s : State) : (wait s).src = s.src := rfl
@[simp] theorem wait_cstate (s : State) : (wait s).cstate = s.cstate := rfl
@[simp] theorem wait_slot (s : State) : (wait s).slot = s.slot := rfl
@[simp] theorem wait_batchCnt (s : State) : (wait s).batchCnt = s.batchCnt := rfl
@[simp] theorem wait_apuPhase (s : State) : (wait s).apuPhase = s.apuPhase := rfl
@[simp] theorem wait_shutdownLatch (s : State) : (wait s).shutdownLatch = s.shutdownLatch := rfl
@[simp] theorem wait_audioPlay (s : State) : (wait s).audioPlay = s.audioPlay := rfl
@[simp] theorem wait_tPrev (s : State) : (wait s).tPrev = s.tPrev := rfl
@[simp] theorem wait_nCpu (s : State) : (wait s).nCpu = s.nCpu := rfl
@[simp] theorem wait_nPpu (s : State) : (wait s).nPpu = s.nPpu := rfl
@[simp] theorem wait_nApu (s : State) : (wait s).nApu = s.nApu := rfl
@[simp] theorem wait_ctrl (s : State) : (wait s).ctrl = s.ctrl := rfl
@[simp] theorem wait_imgLock (s : State) : (wait s).imgLock = s.imgLock := rfl
@[simp] theorem wait_ctrlLock (s : State) : (wait s).ctrlLock = s.ctrlLock := rfl
@[simp] theorem wait_req (s : State) : (wait s).req = s.req := rfl
@[simp] theorem wait_cartOk (s : State) : (wait s).cartOk = s.cartOk := rfl
@[simp] theorem wait_port (s : State) : (wait s).port = s.port := rfl
@[simp] theorem wait_cfg (s : State) : (wait s).cfg = s.cfg := rfl
@[simp] theorem wait_draws (s : State) : (wait s).draws = s.draws := rfl
@[simp] theorem wait_trace (s : State) : (wait s).trace = s.trace := rfl
@[simp] theorem wait_inbox (s : State) : (wait s).inbox = s.port :: s.inbox := rfl

end Sys2Proof.Machine
end

