-- ==== Sys2Proof/Laws/Memory.lean ====
section
/-! SUPPORT. The stores: a read after a write, what a write leaves alone, and that every memory operation keeps the
canonical form. -/

namespace Sys2Proof.Machine

@[simp] theorem cellGet_cellSet_same (m : Memory) (i : Nat) (v : Byte) : cellGet (cellSet m i v) i = some v := by
  induction m with
  | nil => simp [cellSet, cellGet]
  | cons c m ih =>
    obtain ⟨k, w⟩ := c
    rcases Nat.lt_trichotomy i k with h | h | h
    · simp [cellSet, cellGet, h]
    · simp [cellSet, cellGet, h]
    · have h1 : ¬ i < k := by omega
      have h2 : i ≠ k := by omega
      simp [cellSet, cellGet, h1, h2, ih]

theorem cellGet_cellSet_other {i j : Nat} (h : j ≠ i) (m : Memory) (v : Byte) :
    cellGet (cellSet m i v) j = cellGet m j := by
  induction m with
  | nil => simp [cellSet, cellGet, h]
  | cons c m ih =>
    obtain ⟨k, w⟩ := c
    rcases Nat.lt_trichotomy i k with hk | hk | hk
    · simp [cellSet, cellGet, hk, h]
    · subst hk; simp [cellSet, cellGet, h]
    · have h1 : ¬ i < k := by omega
      have h2 : i ≠ k := by omega
      simp [cellSet, cellGet, h1, h2, ih]

/-- The cells listed after a write are the cell written and cells listed before. -/
theorem mem_cellSet {m : Memory} {i : Nat} {v : Byte} {c : Host.Cell} (h : c ∈ cellSet m i v) :
    c.1 = i ∨ c ∈ m := by
  induction m with
  | nil => simp [cellSet] at h; simp [h]
  | cons d m ih =>
    obtain ⟨k, w⟩ := d
    rcases Nat.lt_trichotomy i k with hk | hk | hk
    · simp [cellSet, hk] at h
      rcases h with rfl | rfl | h <;> simp [*]
    · subst hk
      simp [cellSet] at h
      rcases h with rfl | h <;> simp [*]
    · have h1 : ¬ i < k := by omega
      have h2 : i ≠ k := by omega
      simp [cellSet, h1, h2] at h
      rcases h with rfl | h
      · simp
      · rcases ih h with h | h <;> simp [h]

/-- A write keeps the canonical form. -/
theorem cellSet_wf {m : Memory} (hm : m.wf) (i : Nat) (v : Byte) : (cellSet m i v).wf := by
  induction m with
  | nil => simp [cellSet]
  | cons c m ih =>
    obtain ⟨k, w⟩ := c
    obtain ⟨hk, hm'⟩ := List.pairwise_cons.mp hm
    rcases Nat.lt_trichotomy i k with h | h | h
    · simp only [cellSet, h, if_true]
      refine List.pairwise_cons.mpr ⟨?_, List.pairwise_cons.mpr ⟨hk, hm'⟩⟩
      intro d hd
      rcases List.mem_cons.mp hd with rfl | hd
      · exact h
      · exact lt_trans h (hk d hd)
    · subst h
      simp only [cellSet, lt_irrefl, if_false, if_true]
      exact List.pairwise_cons.mpr ⟨hk, hm'⟩
    · have h1 : ¬ i < k := by omega
      have h2 : i ≠ k := by omega
      simp only [cellSet, h1, h2, if_false]
      refine List.pairwise_cons.mpr ⟨?_, ih hm'⟩
      intro d hd
      rcases mem_cellSet hd with hd | hd
      · simpa [hd] using h
      · exact hk d hd

@[simp] theorem readCell_writeCell_same (st : Store) (i : Nat) (v : Byte) (s : State) :
    readCell st i (writeCell st i v s) = v := by
  simp [readCell, writeCell]

theorem readCell_writeCell_other {st st' : Store} {i j : Nat} (h : st' ≠ st ∨ j ≠ i) (v : Byte) (s : State) :
    readCell st' j (writeCell st i v s) = readCell st' j s := by
  by_cases hs : st' = st
  · subst hs
    simp [readCell, writeCell, cellGet_cellSet_other (h.resolve_left (by simp))]
  · simp [readCell, writeCell, cells_withCells_other hs]

/-- What a run of bytes leaves in each cell of its store (R220). -/
theorem readCell_writeBytes (st : Store) (bytes : List Byte) (off j : Nat) (s : State) :
    readCell st j (writeBytes st off bytes s) =
      if off ≤ j then (bytes[j - off]?).getD (readCell st j s) else readCell st j s := by
  induction bytes generalizing off s with
  | nil => simp [writeBytes]
  | cons b bs ih =>
    rw [writeBytes, ih]
    rcases Nat.lt_trichotomy j off with h | h | h
    · have h1 : ¬ off + 1 ≤ j := by omega
      have h2 : ¬ off ≤ j := by omega
      simp [h1, h2, readCell_writeCell_other (Or.inr (by omega : j ≠ off))]
    · subst h; simp
    · have h1 : off + 1 ≤ j := by omega
      have h2 : off ≤ j := by omega
      have h3 : j - off = (j - (off + 1)) + 1 := by omega
      simp [h1, h2, h3, readCell_writeCell_other (Or.inr (by omega : j ≠ off))]

/-- A run of bytes leaves the other stores alone. -/
theorem cells_writeBytes_other {st st' : Store} (h : st' ≠ st) (bytes : List Byte) (off : Nat) (s : State) :
    cells (writeBytes st off bytes s) st' = cells s st' := by
  induction bytes generalizing off s with
  | nil => rfl
  | cons b bs ih => rw [writeBytes, ih, writeCell, cells_withCells_other h]

/-- A run of bytes changes one store and nothing else. -/
theorem writeBytes_frame (st : Store) (bytes : List Byte) (off : Nat) (s : State) :
    withCells st (cells s st) (writeBytes st off bytes s) = s := by
  induction bytes generalizing off s with
  | nil => simp [writeBytes]
  | cons b bs ih =>
    have h := congrArg (withCells st (cells s st)) (ih (off + 1) (writeCell st off b s))
    simpa [writeBytes, writeCell] using h

/-- A run of bytes lists only cells of its range and cells listed before. -/
theorem mem_writeBytes {st : Store} {bytes : List Byte} {off : Nat} {s : State} {c : Host.Cell}
    (h : c ∈ cells (writeBytes st off bytes s) st) : c.1 < off + bytes.length ∨ c ∈ cells s st := by
  induction bytes generalizing off s with
  | nil => exact .inr h
  | cons b bs ih =>
    rcases ih h with h | h
    · left; simp; omega
    · simp [writeCell] at h
      rcases mem_cellSet h with h | h
      · left; simp; omega
      · exact .inr h

/-- A run of bytes keeps the canonical form. -/
theorem writeBytes_wf {st : Store} (bytes : List Byte) (off : Nat) {s : State} (h : (cells s st).wf) :
    (cells (writeBytes st off bytes s) st).wf := by
  induction bytes generalizing off s with
  | nil => exact h
  | cons b bs ih => exact ih (off + 1) (by simpa [writeCell] using cellSet_wf h off b)

end Sys2Proof.Machine
end

