-- ==== Sys2Proof/Laws/Operands.lean ====
section
/-! SUPPORT. What the masks of R6 keep of an address. -/

namespace Sys2Proof.Machine

theorem toNat_ramMask (a : Addr) : (a &&& Config.ramMask).toNat = a.toNat % 2048 := by
  simpa [Config.ramMask] using Nat.and_two_pow_sub_one_eq_mod a.toNat 11

theorem toNat_pregMask (a : Addr) : (a &&& Config.pregMask).toNat = a.toNat % 8 := by
  simpa [Config.pregMask] using Nat.and_two_pow_sub_one_eq_mod a.toNat 3

/-- A register window's resolved address is the base plus the index (R64 d). -/
theorem toNat_pregBase (a : Addr) : (Config.pregBase ||| (a &&& Config.pregMask)).toNat = 0x2000 + a.toNat % 8 := by
  have h : a &&& Config.pregMask = BitVec.ofNat 16 (a.toNat % 8) := by
    apply BitVec.eq_of_toNat_eq
    rw [toNat_pregMask, BitVec.toNat_ofNat]
    omega
  have key : ∀ n : Fin 8, (Config.pregBase ||| BitVec.ofNat 16 n.val).toNat = 0x2000 + n.val := by decide
  rw [h]
  exact key ⟨a.toNat % 8, Nat.mod_lt _ (by decide)⟩

theorem pspace_lt (a : Addr) : (a &&& Config.pspaceMask).toNat < 0x4000 := by
  rw [toNat_pspace]
  omega

/-- The fold of space `P` leaves an address below `0x4000` alone (R63). -/
theorem pspace_id {a : Addr} (h : a.toNat < 0x4000) : a &&& Config.pspaceMask = a := by
  apply BitVec.eq_of_toNat_eq
  rw [toNat_pspace]
  omega

/-- The window mask keeps an address of `0x2000` to `0x3FFF` within `0x2000` to `0x2FFF` (R63). -/
theorem ntMask_range {a : Addr} (h : 0x2000 ≤ a.toNat) (h' : a.toNat < 0x4000) :
    0x2000 ≤ (a &&& Config.ntMask).toNat ∧ (a &&& Config.ntMask).toNat ≤ 0x2FFF := by
  constructor
  · have h3 : a.getLsbD 13 = true := by
      rw [BitVec.getLsbD, Nat.testBit_eq_decide_div_mod_eq]
      simp
      omega
    have h4 : (a &&& Config.ntMask).getLsbD 13 = true := by simp [Config.ntMask, h3]
    exact Nat.ge_two_pow_of_testBit h4
  · rw [Config.ntMask, BitVec.toNat_and]
    exact Nat.and_le_right

end Sys2Proof.Machine
end

