-- ==== Sys2Proof/Laws/Ops.lean ====
section
/-! SUPPORT. One lemma per shared operation saying what it answers and what it leaves: the copies under a lock, the
accesses by owner, an activity of a collaborator. -/

namespace Sys2Proof.Machine

/-! ## Copies under a lock (R225, R226) -/

theorem locked_held {l : LockId} {g : Agent} {copy : State → State} {s : State} (h : lockOf l s ≠ .free) :
    locked l g copy s = none := by
  simp [locked, acq, h]

theorem writeBytes_setLock (st : Store) (bytes : List Byte) (off : Nat) (l : LockId) (k : Lock) (s : State) :
    writeBytes st off bytes (setLock l k s) = setLock l k (writeBytes st off bytes s) := by
  induction bytes generalizing off s with
  | nil => rfl
  | cons b bs ih =>
    have h : writeCell st off b (setLock l k s) = setLock l k (writeCell st off b s) := by
      cases st <;> cases l <;> rfl
    rw [writeBytes, h, ih, writeBytes]

/-- A copy that commutes with setting its lock is the whole effect of the operation. -/
theorem locked_free {l : LockId} {g : Agent} {copy : State → State} {s : State} (h : lockOf l s = .free)
    (hc : ∀ k, copy (setLock l k s) = setLock l k (copy s)) (hl : lockOf l (copy s) = .free) :
    locked l g copy s = some (copy s) := by
  simp only [locked, acq, rel, h, if_true, Option.bind_some, hc, lockOf_setLock, setLock_setLock]
  rw [← hl, setLock_lockOf]

theorem imgWriteOp_refused {off : Nat} {bytes : List Byte} {s : State} (word : OpWord)
    (h : bytes = [] ∨ s.cfg.imgSize < off + bytes.length) :
    imgWriteOp off bytes word s = some (refuseOp word s) := by
  simp [imgWriteOp, h]

theorem lockOf_writeBytes (l : LockId) (st : Store) (bytes : List Byte) (off : Nat) (s : State) :
    lockOf l (writeBytes st off bytes s) = lockOf l s := by
  induction bytes generalizing off s with
  | nil => rfl
  | cons b bs ih => rw [writeBytes, ih]; cases st <;> cases l <;> rfl

theorem imgWriteOp_free {off : Nat} {bytes : List Byte} {s : State} (word : OpWord) (hl : s.imgLock = .free)
    (hb : bytes ≠ []) (hr : off + bytes.length ≤ s.cfg.imgSize) :
    imgWriteOp off bytes word s = some (writeBytes .img off bytes s) := by
  have h : ¬ (bytes = [] ∨ s.cfg.imgSize < off + bytes.length) := by
    rintro (h | h)
    · exact hb h
    · omega
  rw [imgWriteOp, if_neg h]
  exact locked_free hl (fun k => writeBytes_setLock ..) (by rw [lockOf_writeBytes]; exact hl)

theorem imgReadOp_free {s : State} (hl : s.imgLock = .free) :
    imgReadOp s = some (emit (.image (imageOf s)) s) :=
  locked_free hl (fun _ => rfl) hl

theorem ctrlWriteOp_free {s : State} (v : Nat) (hl : s.ctrlLock = .free) :
    ctrlWriteOp v s = some { s with ctrl := v % 2 ^ s.cfg.ctrlW } :=
  locked_free (copy := fun s1 => { s1 with ctrl := v % 2 ^ s1.cfg.ctrlW }) hl (fun _ => rfl) hl

theorem ctrlReadOp_free {s : State} (hl : s.ctrlLock = .free) :
    ctrlReadOp s = some (emit (.ctrlValue s.ctrl) s) :=
  locked_free hl (fun _ => rfl) hl

/-! ## What an activity leaves -/

/-- The part of the invariant an activity works on (R20, R22 to R25, R35, R36). -/
structure DataOk (s : State) : Prop where
  stores : s.ram.wf ∧ s.vram.wf ∧ s.pal.wf ∧ s.img.wf
  ramCells : ∀ c ∈ s.ram, c.1 < Config.ramSize
  vramCells : ∀ c ∈ s.vram, ∃ ra, c.1 = vramCell s.cfg ra
  palCells : ∀ c ∈ s.pal, ∃ ra, c.1 = palCell s.cfg ra
  imgCells : ∀ c ∈ s.img, c.1 < s.cfg.imgSize
  ctrlBits : s.ctrl < 2 ^ s.cfg.ctrlW
  sources : s.req.Pairwise (· < ·)

/-- What an operation of a collaborator or of `PRES` leaves: everything `control` holds, a set latch, a longer `SRC`,
longer outputs, and sound data. -/
structure Leaves (s t : State) : Prop where
  control : control t = control s
  latch : s.shutdownLatch = true → t.shutdownLatch = true
  src : s.src <+: t.src
  trace : s.trace <+: t.trace
  data : DataOk s → DataOk t

theorem Leaves.refl (s : State) : Leaves s s :=
  ⟨rfl, id, List.prefix_refl _, List.prefix_refl _, id⟩

theorem Leaves.trans {s t u : State} (h : Leaves s t) (k : Leaves t u) : Leaves s u :=
  ⟨k.control.trans h.control, fun x => k.latch (h.latch x), h.src.trans k.src, h.trace.trans k.trace,
    fun x => k.data (h.data x)⟩

/-- Fields two states with the same `control` share. -/
theorem control_fields {s t : State} (h : control t = control s) :
    t.cstate = s.cstate ∧ t.slot = s.slot ∧ t.batchCnt = s.batchCnt ∧ t.apuPhase = s.apuPhase ∧
    t.audioPlay = s.audioPlay ∧ t.tPrev = s.tPrev ∧ t.nCpu = s.nCpu ∧ t.nPpu = s.nPpu ∧ t.nApu = s.nApu ∧
    t.imgLock = s.imgLock ∧ t.ctrlLock = s.ctrlLock ∧ t.cartOk = s.cartOk ∧ t.inbox = s.inbox ∧ t.port = s.port ∧
    t.cfg = s.cfg ∧ t.draws = s.draws := by
  simp only [Machine.control, State.mk.injEq] at h
  tauto

theorem Leaves.locks {s t : State} (h : Leaves s t) (hs : LocksFree s) : LocksFree t := by
  have h1 := congrArg State.imgLock h.control
  have h2 := congrArg State.ctrlLock h.control
  exact ⟨h1.trans hs.1, h2.trans hs.2⟩

theorem Leaves.cfg {s t : State} (h : Leaves s t) : t.cfg = s.cfg := by
  have h1 := congrArg State.cfg h.control
  exact h1

theorem leaves_emit (o : Output) (s : State) : Leaves s (emit o s) :=
  ⟨rfl, id, List.prefix_refl _, List.prefix_append _ _, fun h => ⟨h.1, h.2, h.3, h.4, h.5, h.6, h.7⟩⟩

theorem and_ramMask_lt (a : Addr) : (a &&& Config.ramMask).toNat < Config.ramSize := by
  have : (a &&& Config.ramMask).toNat = a.toNat % 2048 := by
    simpa [Config.ramMask] using Nat.and_two_pow_sub_one_eq_mod a.toNat 11
  simp only [Config.ramSize]; omega

/-- A write of a cell the store has (R22, R23). -/
theorem leaves_writeCell (st : Store) (i : Nat) (v : Byte) (s : State)
    (hi : match st with
      | .ram => i < Config.ramSize
      | .vram => ∃ ra, i = vramCell s.cfg ra
      | .pal => ∃ ra, i = palCell s.cfg ra
      | .img => i < s.cfg.imgSize) : Leaves s (writeCell st i v s) := by
  cases st <;> refine ⟨rfl, id, List.prefix_refl _, List.prefix_refl _, fun h => ?_⟩
  · refine ⟨⟨cellSet_wf h.stores.1 i v, h.stores.2⟩, fun c hc => ?_, h.3, h.4, h.5, h.6, h.7⟩
    rcases mem_cellSet hc with hc | hc
    · rw [hc]; exact hi
    · exact h.ramCells c hc
  · refine ⟨⟨h.stores.1, cellSet_wf h.stores.2.1 i v, h.stores.2.2⟩, h.2, fun c hc => ?_, h.4, h.5, h.6, h.7⟩
    rcases mem_cellSet hc with hc | hc
    · rw [hc]; exact hi
    · exact h.vramCells c hc
  · refine ⟨⟨h.stores.1, h.stores.2.1, cellSet_wf h.stores.2.2.1 i v, h.stores.2.2.2⟩, h.2, h.3, fun c hc => ?_, h.5, h.6, h.7⟩
    rcases mem_cellSet hc with hc | hc
    · rw [hc]; exact hi
    · exact h.palCells c hc
  · refine ⟨⟨h.stores.1, h.stores.2.1, h.stores.2.2.1, cellSet_wf h.stores.2.2.2 i v⟩, h.2, h.3, h.4, fun c hc => ?_, h.6, h.7⟩
    rcases mem_cellSet hc with hc | hc
    · rw [hc]; exact hi
    · exact h.imgCells c hc

theorem leaves_writeBytes (bytes : List Byte) (off : Nat) (s : State) (h : off + bytes.length ≤ s.cfg.imgSize) :
    Leaves s (writeBytes .img off bytes s) := by
  induction bytes generalizing off s with
  | nil => exact Leaves.refl s
  | cons b bs ih =>
    have hlt : off < s.cfg.imgSize := by simp at h; omega
    have hle : off + 1 + bs.length ≤ s.cfg.imgSize := by simp at h; omega
    exact (leaves_writeCell .img off b s hlt).trans (ih (off + 1) _ hle)

/-- An operation that answers, when both locks are `FREE`, with a state it leaves sound. -/
def Completes (f : State → Option State) : Prop := ∀ s, LocksFree s → ∃ t, f s = some t ∧ Leaves s t

theorem completes_some {f : State → State} (h : ∀ s, Leaves s (f s)) : Completes fun s => some (f s) :=
  fun s _ => ⟨f s, rfl, h s⟩

theorem Completes.bind {f g : State → Option State} (hf : Completes f) (hg : Completes g) :
    Completes fun s => (f s).bind g := by
  intro s hs
  obtain ⟨t, ht, hl⟩ := hf s hs
  obtain ⟨u, hu, hk⟩ := hg t (hl.locks hs)
  exact ⟨u, by simp [ht, hu], hl.trans hk⟩

theorem completes_imgWriteOp (off : Nat) (bytes : List Byte) (word : OpWord) :
    Completes (imgWriteOp off bytes word) := by
  intro s hs
  by_cases h : bytes = [] ∨ s.cfg.imgSize < off + bytes.length
  · exact ⟨_, imgWriteOp_refused word h, leaves_emit _ s⟩
  · push Not at h
    exact ⟨_, imgWriteOp_free word hs.1 h.1 h.2, leaves_writeBytes bytes off s h.2⟩

theorem completes_imgReadOp : Completes imgReadOp :=
  fun s hs => ⟨_, imgReadOp_free hs.1, leaves_emit _ s⟩

theorem completes_ctrlWriteOp (v : Nat) : Completes (ctrlWriteOp v) :=
  fun s hs => ⟨_, ctrlWriteOp_free v hs.2, rfl, id, List.prefix_refl _, List.prefix_refl _,
    fun h => ⟨h.1, h.2, h.3, h.4, h.5, Nat.mod_lt _ (by positivity), h.7⟩⟩

theorem completes_ctrlReadOp : Completes ctrlReadOp :=
  fun s hs => ⟨_, ctrlReadOp_free hs.2, leaves_emit _ s⟩

theorem leaves_irqRegOp (id : SrcId) (s : State) : Leaves s (irqRegOp id s) :=
  ⟨rfl, fun h => h, List.prefix_append _ _, List.prefix_refl _, fun h => ⟨h.1, h.2, h.3, h.4, h.5, h.6, h.7⟩⟩

theorem leaves_shutdownOp (s : State) : Leaves s (shutdownOp s) :=
  ⟨rfl, fun _ => rfl, List.prefix_refl _, List.prefix_refl _, fun h => ⟨h.1, h.2, h.3, h.4, h.5, h.6, h.7⟩⟩

theorem mem_insertSource {id x : SrcId} {xs : List SrcId} : x ∈ insertSource id xs ↔ x = id ∨ x ∈ xs := by
  induction xs with
  | nil => simp [insertSource]
  | cons y ys ih =>
    simp only [insertSource]
    split
    · simp
    · split
      · rename_i h; subst h; simp
      · simp [ih]; tauto

theorem insertSource_sorted {id : SrcId} {xs : List SrcId} (h : xs.Pairwise (· < ·)) :
    (insertSource id xs).Pairwise (· < ·) := by
  induction xs with
  | nil => simp [insertSource]
  | cons y ys ih =>
    obtain ⟨hy, hys⟩ := List.pairwise_cons.mp h
    simp only [insertSource]
    split
    · rename_i hlt
      refine List.pairwise_cons.mpr ⟨fun z hz => ?_, h⟩
      rcases List.mem_cons.mp hz with rfl | hz
      · exact hlt
      · exact BitVec.lt_trans hlt (hy z hz)
    · split
      · exact h
      · rename_i h1 h2
        refine List.pairwise_cons.mpr ⟨fun z hz => ?_, ih hys⟩
        rcases mem_insertSource.mp hz with rfl | hz
        · bv_omega
        · exact hy z hz

theorem mem_removeSource {id x : SrcId} {xs : List SrcId} : x ∈ removeSource id xs ↔ x ≠ id ∧ x ∈ xs := by
  simp [removeSource, and_comm]

theorem leaves_srcSetOp (id : SrcId) (s : State) : Leaves s (srcSetOp id s) :=
  ⟨rfl, fun h => h, List.prefix_refl _, List.prefix_refl _,
    fun h => ⟨h.1, h.2, h.3, h.4, h.5, h.6, insertSource_sorted h.7⟩⟩

theorem leaves_srcClrOp (id : SrcId) (s : State) : Leaves s (srcClrOp id s) :=
  ⟨rfl, fun h => h, List.prefix_refl _, List.prefix_refl _,
    fun h => ⟨h.1, h.2, h.3, h.4, h.5, h.6, h.7.filter _⟩⟩

/-! ## Accesses -/

theorem completes_devRead {run : State → Option State} (hr : Completes run) (d : Device) (ra : Addr) (org : Origin)
    (snap : Option Nat) (ans : Byte) : Completes (devRead run d ra org snap ans) := by
  intro s hs
  have he := leaves_emit (.devRead d ra org snap) s
  obtain ⟨t, ht, hl⟩ := hr _ (he.locks hs)
  exact ⟨emit (.rd ans) t, by simp [devRead, ht], (he.trans hl).trans (leaves_emit _ t)⟩

theorem completes_devWrite {run : State → Option State} (hr : Completes run) (d : Device) (ra : Addr) (org : Origin)
    (v : Byte) (snap : Option Nat) : Completes (devWrite run d ra org v snap) := by
  intro s hs
  have he := leaves_emit (.devWrite d ra org v snap) s
  obtain ⟨t, ht, hl⟩ := hr _ (he.locks hs)
  exact ⟨t, ht, he.trans hl⟩

theorem withSnapshot_free {k : Nat → State → Option State} {s : State} (h : s.ctrlLock = .free) :
    withSnapshot k s = k s.ctrl (emit (.ctrlValue s.ctrl) s) := by
  simp [withSnapshot, ctrlReadOp_free h]

theorem completes_withSnapshot {k : Nat → State → Option State} (hk : ∀ n, Completes (k n)) :
    Completes (withSnapshot k) := by
  intro s hs
  have he := leaves_emit (.ctrlValue s.ctrl) s
  obtain ⟨t, ht, hl⟩ := hk s.ctrl _ (he.locks hs)
  exact ⟨t, by rw [withSnapshot_free hs.2, ht], he.trans hl⟩

/-- The owners whose resolved address names a cell are the three stores of the routers (R94). -/
theorem ownerCell_isSome {cfg : Params} {r : Owner × Addr} :
    (ownerCell cfg r).isSome = true ↔ r.1 = .ram ∨ r.1 = .vram ∨ r.1 = .pal := by
  obtain ⟨o, ra⟩ := r
  cases o <;> simp [ownerCell]

/-- A read of an owner whose resolved address names a cell reads that cell, whatever the called device would do (R122,
R154, R156). -/
theorem readOwner_cell {r : Owner × Addr} {s : State} {st : Store} {i : Nat}
    (h : ownerCell s.cfg r = some (st, i)) (sp : Space) (run : State → Option State) (org : Origin) (ans : Byte) :
    readOwner sp r.1 run r.2 org ans s = some (readStore st i (routed sp r.1 r.2 s)) := by
  obtain ⟨o, ra⟩ := r
  cases o <;> simp only [ownerCell, Option.some.injEq, Prod.mk.injEq, reduceCtorEq] at h <;>
    obtain ⟨rfl, rfl⟩ := h <;> rfl

/-- A write of an owner whose resolved address names a cell replaces that cell (R123, R155, R157). -/
theorem writeOwner_cell {r : Owner × Addr} {s : State} {st : Store} {i : Nat}
    (h : ownerCell s.cfg r = some (st, i)) (sp : Space) (run : State → Option State) (org : Origin) (v : Byte) :
    writeOwner sp r.1 run r.2 org v s = some (writeCell st i v (routed sp r.1 r.2 s)) := by
  obtain ⟨o, ra⟩ := r
  cases o <;> simp only [ownerCell, Option.some.injEq, Prod.mk.injEq, reduceCtorEq] at h <;>
    obtain ⟨rfl, rfl⟩ := h <;> rfl

/-- A read of any owner completes when the device's activity does (R136, R159). -/
theorem completes_readOwner (sp : Space) (o : Owner) {run : State → Option State} (hr : Completes run) (ra : Addr)
    (org : Origin) (ans : Byte) : Completes (readOwner sp o run ra org ans) := by
  intro s hs
  have he := leaves_emit (.route sp o ra) s
  have go : ∀ f, Completes f → readOwner sp o run ra org ans s = f (emit (.route sp o ra) s) →
      ∃ t, readOwner sp o run ra org ans s = some t ∧ Leaves s t := by
    intro f hf hfs
    obtain ⟨t, ht, hl⟩ := hf _ (he.locks hs)
    exact ⟨t, by rw [hfs, ht], he.trans hl⟩
  cases o with
  | none => exact ⟨_, rfl, (he.trans (leaves_emit _ _)).trans (leaves_emit _ _)⟩
  | ram => exact ⟨_, rfl, he.trans (leaves_emit _ _)⟩
  | vram => exact ⟨_, rfl, he.trans (leaves_emit _ _)⟩
  | pal => exact ⟨_, rfl, he.trans (leaves_emit _ _)⟩
  | ppureg => exact go _ (completes_devRead hr .ppu ra org none ans) rfl
  | apu => exact go _ (completes_devRead hr .apu ra org none ans) rfl
  | cart => exact go _ (completes_devRead hr .cart ra org none ans) rfl
  | ctrlDev => exact go _ (completes_withSnapshot fun n => completes_devRead hr .ctrlDev ra org (some n) ans) rfl

/-- A write of any owner, `RAM` within its cells, completes when the device's activity does. -/
theorem completes_writeOwner (sp : Space) (o : Owner) {run : State → Option State} (hr : Completes run) (ra : Addr)
    (org : Origin) (v : Byte) (hram : o = .ram → ra.toNat < Config.ramSize) :
    Completes (writeOwner sp o run ra org v) := by
  intro s hs
  have he := leaves_emit (.route sp o ra) s
  have go : ∀ f, Completes f → writeOwner sp o run ra org v s = f (emit (.route sp o ra) s) →
      ∃ t, writeOwner sp o run ra org v s = some t ∧ Leaves s t := by
    intro f hf hfs
    obtain ⟨t, ht, hl⟩ := hf _ (he.locks hs)
    exact ⟨t, by rw [hfs, ht], he.trans hl⟩
  cases o with
  | none => exact ⟨_, rfl, he.trans (leaves_emit _ _)⟩
  | ram => exact ⟨_, rfl, he.trans (leaves_writeCell .ram _ v _ (hram rfl))⟩
  | vram => exact ⟨_, rfl, he.trans (leaves_writeCell .vram _ v _ ⟨ra, rfl⟩)⟩
  | pal => exact ⟨_, rfl, he.trans (leaves_writeCell .pal _ v _ ⟨ra, rfl⟩)⟩
  | ppureg => exact go _ (completes_devWrite hr .ppu ra org v none) rfl
  | apu => exact go _ (completes_devWrite hr .apu ra org v none) rfl
  | cart => exact go _ (completes_devWrite hr .cart ra org v none) rfl
  | ctrlDev => exact go _ (completes_withSnapshot fun n => completes_devWrite hr .ctrlDev ra org v (some n)) rfl

/-- An address routed to `RAM` is resolved to one of its cells (R62). -/
theorem route_ram {sp : Space} {a : Addr} (h : (route sp a).1 = .ram) : (route sp a).2.toNat < Config.ramSize := by
  cases sp with
  | c =>
    simp only [route, routeC] at h ⊢
    by_cases h1 : a.toNat ≤ 0x1FFF
    · simpa only [h1, if_true] using and_ramMask_lt a
    · exfalso; revert h; repeat' split
      all_goals simp_all
  | p =>
    exfalso
    revert h
    simp only [route, routeP, routeP0]
    repeat' split
    all_goals simp

/-! ## Activities -/

theorem completes_performAct (act : Act) (opened : List Device) {run : List Device → State → Option State}
    (hr : ∀ opened, Completes (run opened)) : Completes (performAct act opened run) := by
  cases act with
  | read sp a org ans =>
    intro s hs
    by_cases hc : (s.cartOk && mayEnter (route sp a).1 opened) = true
    · simpa only [performAct, hc, if_true, memRead] using completes_readOwner sp _ (hr _) _ org ans s hs
    · exact ⟨s, by simp only [performAct, hc, if_false, Bool.false_eq_true], Leaves.refl s⟩
  | write sp a org v =>
    intro s hs
    by_cases hc : (s.cartOk && mayEnter (route sp a).1 opened) = true
    · simpa only [performAct, hc, if_true, memWrite] using completes_writeOwner sp _ (hr _) _ org v route_ram s hs
    · exact ⟨s, by simp only [performAct, hc, if_false, Bool.false_eq_true], Leaves.refl s⟩
  | irqReg id => exact completes_some (leaves_irqRegOp id)
  | srcSet id => exact completes_some (leaves_srcSetOp id)
  | srcClr id => exact completes_some (leaves_srcClrOp id)
  | imgWrite off bytes => exact completes_imgWriteOp off bytes _
  | ctrlRead => exact completes_ctrlReadOp
  | imgRead => exact completes_imgReadOp
  | ctrlWrite v => exact completes_ctrlWriteOp v
  | shutdown => exact completes_some leaves_shutdownOp

/-- With both locks `FREE` an activity completes and leaves the sequencer, the counters, the locks and the parameters
alone (R16, R226). -/
theorem completes_runActs (acts : Activity) (opened : List Device) : Completes (runActs acts opened) := by
  induction acts generalizing opened with
  | done => exact completes_some Leaves.refl
  | op act inner next hi hn => exact (completes_performAct act opened hi).bind (hn opened)

theorem completes_entry (opened : List Device) (s : State) : Completes (entry opened s) := completes_runActs _ _

theorem completes_playEntry (s : State) : Completes (playEntry s) := completes_runActs _ _

/-- A collaborator that does nothing (R16). -/
theorem entry_quiet {s : State} (h : s.port.inputs.acts = .done) (opened : List Device) : entry opened s = some := by
  unfold entry
  rw [h]
  rfl

theorem finish_some {r : Option State} {t s : State} (h : r = some t) : finish r s = .next t := by simp [finish, h]

theorem finish_none {r : Option State} {s : State} (h : r = none) : finish r s = .next (wait s) := by simp [finish, h]

/-! ## The same, whatever the locks hold: what an operation that answers leaves -/

/-- An operation whose answers leave the state sound, in every state. -/
def Keeps (f : State → Option State) : Prop := ∀ s t, f s = some t → Leaves s t

theorem keeps_some {f : State → State} (h : ∀ s, Leaves s (f s)) : Keeps fun s => some (f s) := by
  intro s t ht
  obtain rfl := Option.some.inj ht
  exact h s

theorem Keeps.bind {f g : State → Option State} (hf : Keeps f) (hg : Keeps g) : Keeps fun s => (f s).bind g := by
  intro s t ht
  obtain ⟨u, hu, hut⟩ := Option.bind_eq_some_iff.mp ht
  exact (hf s u hu).trans (hg u t hut)

theorem Keeps.map {f : State → Option State} {g : State → State} (hf : Keeps f) (hg : ∀ s, Leaves s (g s)) :
    Keeps fun s => (f s).map g := by
  intro s t ht
  obtain ⟨u, hu, rfl⟩ := Option.map_eq_some_iff.mp ht
  exact (hf s u hu).trans (hg u)

/-- A copy under a lock answers only when the lock is `FREE`. -/
theorem locked_lock {l : LockId} {g : Agent} {copy : State → State} {s t : State} (h : locked l g copy s = some t) :
    lockOf l s = .free := by
  by_contra hl
  rw [locked_held hl] at h
  cases h

theorem keeps_imgWriteOp (off : Nat) (bytes : List Byte) (word : OpWord) : Keeps (imgWriteOp off bytes word) := by
  intro s t h
  by_cases hr : bytes = [] ∨ s.cfg.imgSize < off + bytes.length
  · obtain rfl := Option.some.inj ((imgWriteOp_refused word hr).symm.trans h)
    exact leaves_emit _ s
  · have hl := h
    rw [imgWriteOp, if_neg hr] at hl
    push Not at hr
    obtain rfl := Option.some.inj ((imgWriteOp_free word (locked_lock hl) hr.1 hr.2).symm.trans h)
    exact leaves_writeBytes bytes off s hr.2

theorem keeps_imgReadOp : Keeps imgReadOp := by
  intro s t h
  obtain rfl := Option.some.inj ((imgReadOp_free (locked_lock h)).symm.trans h)
  exact leaves_emit _ s

theorem leaves_ctrl (v : Nat) (s : State) : Leaves s { s with ctrl := v % 2 ^ s.cfg.ctrlW } :=
  ⟨rfl, id, List.prefix_refl _, List.prefix_refl _,
    fun h => ⟨h.1, h.2, h.3, h.4, h.5, Nat.mod_lt _ (by positivity), h.7⟩⟩

theorem keeps_ctrlWriteOp (v : Nat) : Keeps (ctrlWriteOp v) := by
  intro s t h
  obtain rfl := Option.some.inj ((ctrlWriteOp_free v (locked_lock h)).symm.trans h)
  exact leaves_ctrl v s

theorem keeps_ctrlReadOp : Keeps ctrlReadOp := by
  intro s t h
  obtain rfl := Option.some.inj ((ctrlReadOp_free (locked_lock h)).symm.trans h)
  exact leaves_emit _ s

theorem keeps_devRead {run : State → Option State} (hr : Keeps run) (d : Device) (ra : Addr) (org : Origin)
    (snap : Option Nat) (ans : Byte) : Keeps (devRead run d ra org snap ans) := by
  intro s t h
  obtain ⟨u, hu, rfl⟩ := Option.map_eq_some_iff.mp h
  exact ((leaves_emit _ s).trans (hr _ u hu)).trans (leaves_emit _ u)

theorem keeps_devWrite {run : State → Option State} (hr : Keeps run) (d : Device) (ra : Addr) (org : Origin)
    (v : Byte) (snap : Option Nat) : Keeps (devWrite run d ra org v snap) := by
  intro s t h
  exact (leaves_emit _ s).trans (hr _ t h)

theorem keeps_withSnapshot {k : Nat → State → Option State} (hk : ∀ n, Keeps (k n)) : Keeps (withSnapshot k) := by
  intro s t h
  obtain ⟨u, hu, hut⟩ := Option.bind_eq_some_iff.mp h
  exact (keeps_ctrlReadOp s u hu).trans (hk _ u t hut)

theorem keeps_readOwner (sp : Space) (o : Owner) {run : State → Option State} (hr : Keeps run) (ra : Addr)
    (org : Origin) (ans : Byte) : Keeps (readOwner sp o run ra org ans) := by
  intro s t h
  have he := leaves_emit (.route sp o ra) s
  cases o with
  | none => obtain rfl := Option.some.inj h; exact (he.trans (leaves_emit _ _)).trans (leaves_emit _ _)
  | ram => obtain rfl := Option.some.inj h; exact he.trans (leaves_emit _ _)
  | vram => obtain rfl := Option.some.inj h; exact he.trans (leaves_emit _ _)
  | pal => obtain rfl := Option.some.inj h; exact he.trans (leaves_emit _ _)
  | ppureg => exact he.trans (keeps_devRead hr .ppu ra org none ans _ t h)
  | apu => exact he.trans (keeps_devRead hr .apu ra org none ans _ t h)
  | cart => exact he.trans (keeps_devRead hr .cart ra org none ans _ t h)
  | ctrlDev => exact he.trans (keeps_withSnapshot (fun n => keeps_devRead hr .ctrlDev ra org (some n) ans) _ t h)

theorem keeps_writeOwner (sp : Space) (o : Owner) {run : State → Option State} (hr : Keeps run) (ra : Addr)
    (org : Origin) (v : Byte) (hram : o = .ram → ra.toNat < Config.ramSize) :
    Keeps (writeOwner sp o run ra org v) := by
  intro s t h
  have he := leaves_emit (.route sp o ra) s
  cases o with
  | none => obtain rfl := Option.some.inj h; exact he.trans (leaves_emit _ _)
  | ram => obtain rfl := Option.some.inj h; exact he.trans (leaves_writeCell .ram _ v _ (hram rfl))
  | vram => obtain rfl := Option.some.inj h; exact he.trans (leaves_writeCell .vram _ v _ ⟨ra, rfl⟩)
  | pal => obtain rfl := Option.some.inj h; exact he.trans (leaves_writeCell .pal _ v _ ⟨ra, rfl⟩)
  | ppureg => exact he.trans (keeps_devWrite hr .ppu ra org v none _ t h)
  | apu => exact he.trans (keeps_devWrite hr .apu ra org v none _ t h)
  | cart => exact he.trans (keeps_devWrite hr .cart ra org v none _ t h)
  | ctrlDev => exact he.trans (keeps_withSnapshot (fun n => keeps_devWrite hr .ctrlDev ra org v (some n)) _ t h)

theorem keeps_performAct (act : Act) (opened : List Device) {run : List Device → State → Option State}
    (hr : ∀ opened, Keeps (run opened)) : Keeps (performAct act opened run) := by
  cases act with
  | read sp a org ans =>
    intro s t h
    by_cases hc : (s.cartOk && mayEnter (route sp a).1 opened) = true
    · exact keeps_readOwner sp _ (hr _) _ org ans s t (by simpa only [performAct, hc, if_true, memRead] using h)
    · obtain rfl : s = t := by simpa only [performAct, hc, if_false, Bool.false_eq_true, Option.some.injEq] using h
      exact Leaves.refl s
  | write sp a org v =>
    intro s t h
    by_cases hc : (s.cartOk && mayEnter (route sp a).1 opened) = true
    · exact keeps_writeOwner sp _ (hr _) _ org v route_ram s t (by simpa only [performAct, hc, if_true, memWrite] using h)
    · obtain rfl : s = t := by simpa only [performAct, hc, if_false, Bool.false_eq_true, Option.some.injEq] using h
      exact Leaves.refl s
  | irqReg id => exact keeps_some (leaves_irqRegOp id)
  | srcSet id => exact keeps_some (leaves_srcSetOp id)
  | srcClr id => exact keeps_some (leaves_srcClrOp id)
  | imgWrite off bytes => exact keeps_imgWriteOp off bytes _
  | ctrlRead => exact keeps_ctrlReadOp
  | imgRead => exact keeps_imgReadOp
  | ctrlWrite v => exact keeps_ctrlWriteOp v
  | shutdown => exact keeps_some leaves_shutdownOp

theorem keeps_runActs (acts : Activity) (opened : List Device) : Keeps (runActs acts opened) := by
  induction acts generalizing opened with
  | done => exact keeps_some Leaves.refl
  | op act inner next hi hn => exact (keeps_performAct act opened hi).bind (hn opened)

/-- What the collaborator called by an operation leaves, whatever the locks hold. -/
theorem keeps_entry (opened : List Device) (s : State) : Keeps (entry opened s) := keeps_runActs _ _

theorem keeps_playEntry (s : State) : Keeps (playEntry s) := keeps_runActs _ _

/-! ## Units that are not entered meanwhile (R277) -/

/-- An operation whose answers add only outputs at which unit `d` is not mutated. -/
def Avoids (d : Device) (f : State → Option State) : Prop :=
  ∀ s t, f s = some t → ∃ new, t.trace = s.trace ++ new ∧ ∀ o ∈ new, mutates d o = false

theorem avoids_quiet {d : Device} {f : State → State} (h : ∀ s, (f s).trace = s.trace) :
    Avoids d fun s => some (f s) := by
  intro s t ht
  obtain rfl := Option.some.inj ht
  exact ⟨[], by simp [h s], by simp⟩

theorem avoids_emit {d : Device} {o : Output} (h : mutates d o = false) : Avoids d fun s => some (emit o s) := by
  intro s t ht
  obtain rfl := Option.some.inj ht
  exact ⟨[o], rfl, by simpa using h⟩

theorem Avoids.bind {d : Device} {f g : State → Option State} (hf : Avoids d f) (hg : Avoids d g) :
    Avoids d fun s => (f s).bind g := by
  intro s t ht
  obtain ⟨u, hu, hut⟩ := Option.bind_eq_some_iff.mp ht
  obtain ⟨new, hn, hd⟩ := hf s u hu
  obtain ⟨new', hn', hd'⟩ := hg u t hut
  exact ⟨new ++ new', by rw [hn', hn, List.append_assoc], fun o ho => (List.mem_append.mp ho).elim (hd o) (hd' o)⟩

/-- An output, then the rest. -/
theorem Avoids.after {d : Device} {f : State → Option State} (hf : Avoids d f) {o : Output} (h : mutates d o = false) :
    Avoids d fun s => f (emit o s) :=
  (avoids_emit h).bind hf

theorem avoids_imgWriteOp (d : Device) (off : Nat) (bytes : List Byte) (word : OpWord) :
    Avoids d (imgWriteOp off bytes word) := by
  intro s t h
  by_cases hr : bytes = [] ∨ s.cfg.imgSize < off + bytes.length
  · exact avoids_emit (d := d) (o := .event (.opRefused word)) (by cases d <;> rfl) s t
      (by rw [← h]; exact (imgWriteOp_refused word hr).symm)
  · have hl : s.imgLock = .free := by
      unfold imgWriteOp at h
      rw [if_neg hr] at h
      exact locked_lock h
    push Not at hr
    rw [imgWriteOp_free word hl hr.1 hr.2] at h
    obtain rfl := Option.some.inj h
    exact ⟨[], (congrArg State.trace (writeBytes_frame .img bytes off s)).trans (List.append_nil _).symm, by simp⟩

theorem avoids_imgReadOp (d : Device) : Avoids d imgReadOp := by
  intro s t h
  rw [imgReadOp_free (locked_lock h)] at h
  exact avoids_emit (d := d) (o := .image (imageOf s)) (by cases d <;> rfl) s t h

theorem avoids_ctrlWriteOp (d : Device) (v : Nat) : Avoids d (ctrlWriteOp v) := by
  intro s t h
  rw [ctrlWriteOp_free v (locked_lock h)] at h
  obtain rfl := Option.some.inj h
  exact ⟨[], (List.append_nil _).symm, by simp⟩

theorem avoids_ctrlReadOp (d : Device) : Avoids d ctrlReadOp := by
  intro s t h
  rw [ctrlReadOp_free (locked_lock h)] at h
  exact avoids_emit (d := d) (o := .ctrlValue s.ctrl) (by cases d <;> rfl) s t h

theorem avoids_devRead {d e : Device} {run : State → Option State} (hr : Avoids d run) (he : (e == d) = false)
    (ra : Addr) (org : Origin) (snap : Option Nat) (ans : Byte) : Avoids d (devRead run e ra org snap ans) := by
  have h : Avoids d fun s => (run (emit (.devRead e ra org snap) s)).bind fun t => some (emit (.rd ans) t) :=
    (hr.after (by simpa [mutates] using he)).bind (avoids_emit (by cases d <;> rfl))
  intro s t ht
  exact h s t (by rwa [devRead, Option.map_eq_bind] at ht)

theorem avoids_devWrite {d e : Device} {run : State → Option State} (hr : Avoids d run) (he : (e == d) = false)
    (ra : Addr) (org : Origin) (v : Byte) (snap : Option Nat) : Avoids d (devWrite run e ra org v snap) :=
  hr.after (by simpa [mutates] using he)

theorem avoids_withSnapshot {d : Device} {k : Nat → State → Option State} (hk : ∀ n, Avoids d (k n)) :
    Avoids d (withSnapshot k) :=
  (avoids_ctrlReadOp d).bind fun s t h => hk s.ctrl s t h

theorem avoids_writeCell (d : Device) (st : Store) (i : Nat) (v : Byte) : Avoids d fun s => some (writeCell st i v s) :=
  avoids_quiet fun s => by cases st <;> rfl

/-- An access of an owner other than the unit's mutates the unit only if the device it calls does. -/
theorem avoids_readOwner {d : Device} {run : State → Option State} (hr : Avoids d run) (sp : Space) {o : Owner}
    (ho : exclusiveUnit o ≠ some d) (hd : d = .ppu ∨ d = .apu) (ra : Addr) (org : Origin) (ans : Byte) :
    Avoids d (readOwner sp o run ra org ans) := by
  have hroute : mutates d (.route sp o ra) = false := by cases d <;> rfl
  have hrd : ∀ v, mutates d (.rd v) = false := fun v => by cases d <;> rfl
  have hstore : ∀ st i, Avoids d fun s => some (readStore st i s) := fun st i s => avoids_emit (hrd (readCell st i s)) s
  have hne : ∀ e : Device, exclusiveUnit o = some e ∨ e = .cart ∨ e = .ctrlDev → (e == d) = false := by
    rintro e (h | rfl | rfl)
    · simpa using fun hx : e = d => ho (hx ▸ h)
    all_goals rcases hd with rfl | rfl <;> rfl
  cases o with
  | none => exact ((avoids_emit (hrd _)).after (o := .event (.unmapped ra)) (by cases d <;> rfl)).after hroute
  | ram => exact (hstore .ram ra.toNat).after hroute
  | vram => exact fun s => (hstore .vram (vramCell s.cfg ra)).after hroute s
  | pal => exact fun s => (hstore .pal (palCell s.cfg ra)).after hroute s
  | ppureg => exact (avoids_devRead hr (hne .ppu (.inl rfl)) ra org none ans).after hroute
  | apu => exact (avoids_devRead hr (hne .apu (.inl rfl)) ra org none ans).after hroute
  | cart => exact (avoids_devRead hr (hne .cart (.inr (.inl rfl))) ra org none ans).after hroute
  | ctrlDev =>
    exact (avoids_withSnapshot fun n =>
      avoids_devRead hr (hne .ctrlDev (.inr (.inr rfl))) ra org (some n) ans).after hroute

theorem avoids_writeOwner {d : Device} {run : State → Option State} (hr : Avoids d run) (sp : Space) {o : Owner}
    (ho : exclusiveUnit o ≠ some d) (hd : d = .ppu ∨ d = .apu) (ra : Addr) (org : Origin) (v : Byte) :
    Avoids d (writeOwner sp o run ra org v) := by
  have hroute : mutates d (.route sp o ra) = false := by cases d <;> rfl
  have hne : ∀ e : Device, exclusiveUnit o = some e ∨ e = .cart ∨ e = .ctrlDev → (e == d) = false := by
    rintro e (h | rfl | rfl)
    · simpa using fun hx : e = d => ho (hx ▸ h)
    all_goals rcases hd with rfl | rfl <;> rfl
  cases o with
  | none => exact (avoids_emit (o := .event (.unmapped ra)) (by cases d <;> rfl)).after hroute
  | ram => exact (avoids_writeCell d .ram ra.toNat v).after hroute
  | vram => exact fun s => (avoids_writeCell d .vram (vramCell s.cfg ra) v).after hroute s
  | pal => exact fun s => (avoids_writeCell d .pal (palCell s.cfg ra) v).after hroute s
  | ppureg => exact (avoids_devWrite hr (hne .ppu (.inl rfl)) ra org v none).after hroute
  | apu => exact (avoids_devWrite hr (hne .apu (.inl rfl)) ra org v none).after hroute
  | cart => exact (avoids_devWrite hr (hne .cart (.inr (.inl rfl))) ra org v none).after hroute
  | ctrlDev =>
    exact (avoids_withSnapshot fun n =>
      avoids_devWrite hr (hne .ctrlDev (.inr (.inr rfl))) ra org v (some n)).after hroute

/-- An access that may enter while `d` is being mutated is not an access of `d`. -/
theorem mayEnter_other {o : Owner} {opened : List Device} {d : Device} (h : mayEnter o opened = true)
    (hd : d ∈ opened) : exclusiveUnit o ≠ some d := by
  intro hx
  simp [mayEnter, hx, hd] at h

theorem avoids_performAct (act : Act) {d : Device} (hu : d = .ppu ∨ d = .apu) {opened : List Device} (hd : d ∈ opened)
    {run : List Device → State → Option State} (hr : ∀ opened, d ∈ opened → Avoids d (run opened)) :
    Avoids d (performAct act opened run) := by
  have hq : Avoids d (some : State → Option State) := avoids_quiet fun _ => rfl
  have hin : ∀ o, d ∈ entering o opened := fun o => List.mem_append_right _ hd
  cases act with
  | read sp a org ans =>
    intro s t h
    by_cases hc : (s.cartOk && mayEnter (route sp a).1 opened) = true
    · simp only [performAct, hc, if_true] at h
      exact avoids_readOwner (hr _ (hin _)) sp (mayEnter_other (by simp_all) hd) hu _ org ans s t h
    · simp only [performAct, hc, if_false, Bool.false_eq_true] at h
      exact hq s t h
  | write sp a org v =>
    intro s t h
    by_cases hc : (s.cartOk && mayEnter (route sp a).1 opened) = true
    · simp only [performAct, hc, if_true] at h
      exact avoids_writeOwner (hr _ (hin _)) sp (mayEnter_other (by simp_all) hd) hu _ org v s t h
    · simp only [performAct, hc, if_false, Bool.false_eq_true] at h
      exact hq s t h
  | irqReg id => exact avoids_quiet fun _ => rfl
  | srcSet id => exact avoids_quiet fun _ => rfl
  | srcClr id => exact avoids_quiet fun _ => rfl
  | imgWrite off bytes => exact avoids_imgWriteOp d off bytes _
  | ctrlRead => exact avoids_ctrlReadOp d
  | imgRead => exact avoids_imgReadOp d
  | ctrlWrite v => exact avoids_ctrlWriteOp d v
  | shutdown => exact avoids_quiet fun _ => rfl

/-- While the picture unit or the audio unit is being mutated no activity mutates it (R277). -/
theorem avoids_runActs (acts : Activity) {d : Device} (hu : d = .ppu ∨ d = .apu) {opened : List Device}
    (hd : d ∈ opened) : Avoids d (runActs acts opened) := by
  induction acts generalizing opened with
  | done => exact avoids_quiet fun _ => rfl
  | op act inner next hi hn => exact (avoids_performAct act hu hd fun _ h => hi h).bind (hn hd)

theorem avoids_entry (s : State) {d : Device} (hu : d = .ppu ∨ d = .apu) {opened : List Device} (hd : d ∈ opened) :
    Avoids d (entry opened s) :=
  avoids_runActs _ hu hd

end Sys2Proof.Machine
end

