-- ==== Sys2Proof/Laws/PerInstr.lean ====
section
/-! SUPPORT. Per instruction: the operand check of a row is exactly the row's `mask` and `match` in
spec/opcode_table.json (R104). -/

namespace Sys2Proof.Laws.TableRow

/-- The term is well formed exactly when its word selects its own row of the table. -/
def Statement (i : Instr) : Prop := wellFormed i = (tableRow i).selects (encode i)

/-- Masking a bus word with its unit, direction and an address mask compares the masked address alone. -/
theorem busWord_masked (u : BitVec 4) (org : Origin) (we : Bool) (a : Addr) (v : Byte) (m p : Addr) :
    busWord u org we a v &&& opWord 15#4 9#4 m 0#8 = opWord u (0#3 ++ BitVec.ofBool we) p 0#8 ↔ a &&& m = p := by
  have hu : ∀ u : BitVec 4, u &&& 15#4 = u := by decide
  have hf : ∀ (org : Origin) (we : Bool),
      (0#1 ++ org ++ BitVec.ofBool we : BitVec 4) &&& 9#4 = 0#3 ++ BitVec.ofBool we := by decide
  rw [busWord, opWord_and, hu, hf, BitVec.and_zero]
  exact ⟨fun h => by simpa using congrArg arg16Of h, fun h => by rw [h]⟩

/-- An address lies in an aligned block exactly when its high bits are the block's. -/
theorem block_iff (a : Addr) (k c : Nat) (hk : k ≤ 16) (hc : c < 2 ^ (16 - k)) :
    a &&& (BitVec.allOnes 16 <<< k) = BitVec.ofNat 16 c <<< k ↔ a.toNat / 2 ^ k = c := by
  refine ⟨fun h => ?_, and_block k c⟩
  rw [and_highMask] at h
  have h2 := congrArg BitVec.toNat h
  have hp : 2 ^ (16 - k) * 2 ^ k = 2 ^ 16 := by rw [← pow_add]; congr 1; omega
  have h3 : a.toNat / 2 ^ k < 2 ^ (16 - k) := by
    rw [Nat.div_lt_iff_lt_mul (by positivity), hp]; exact a.isLt
  have h4 : a.toNat / 2 ^ k * 2 ^ k < 2 ^ 16 := by
    rw [← hp]; exact Nat.mul_lt_mul_of_pos_right h3 (by positivity)
  have h5 : c * 2 ^ k < 2 ^ 16 := by
    rw [← hp]; exact Nat.mul_lt_mul_of_pos_right hc (by positivity)
  have h6 : c < 2 ^ 16 := lt_of_lt_of_le hc (Nat.pow_le_pow_right (by decide) (by omega))
  simp only [BitVec.toNat_shiftLeft, BitVec.toNat_ushiftRight, Nat.shiftLeft_eq, Nat.shiftRight_eq_div_pow,
    BitVec.toNat_ofNat, Nat.mod_eq_of_lt h4, Nat.mod_eq_of_lt h6, Nat.mod_eq_of_lt h5] at h2
  exact Nat.eq_of_mul_eq_mul_right (by positivity) h2

/-- A row of space `C`: block `c` of size `2 ^ k`. -/
theorem rowC {org : Origin} {we : Bool} {a : Addr} {v : Byte} {lo hi : Nat} {mask pattern : OpWord} (k c : Nat)
    (hk : k ≤ 16) (hc : c < 2 ^ (16 - k)) (hlo : lo = c * 2 ^ k) (hhi : hi + 1 = (c + 1) * 2 ^ k)
    (hm : mask = opWord 15#4 9#4 (BitVec.allOnes 16 <<< k) 0#8)
    (hp : pattern = opWord 0#4 (0#3 ++ BitVec.ofBool we) (BitVec.ofNat 16 c <<< k) 0#8) :
    inRange lo hi a = (TableRow.w mask pattern).selects (.w (busWord 0#4 org we a v)) := by
  rw [Bool.eq_iff_iff, TableRow.selects, beq_iff_eq, hm, hp, busWord_masked, block_iff a k c hk hc,
    Nat.div_eq_iff (by positivity)]
  simp only [inRange, Bool.and_eq_true, decide_eq_true_eq]
  rw [add_mul] at hhi
  omega

/-- A row of space `P`: block `c` of size `2 ^ k` of the folded address. -/
theorem rowP {org : Origin} {we : Bool} {a : Addr} {v : Byte} {lo hi : Nat} {mask pattern : OpWord} (k c : Nat)
    (hk : k ≤ 16) (hc : c < 2 ^ (16 - k)) (hlo : lo = c * 2 ^ k) (hhi : hi + 1 = (c + 1) * 2 ^ k)
    (hm : mask = opWord 15#4 9#4 (Config.pspaceMask &&& (BitVec.allOnes 16 <<< k)) 0#8)
    (hp : pattern = opWord 1#4 (0#3 ++ BitVec.ofBool we) (BitVec.ofNat 16 c <<< k) 0#8) :
    inRange lo hi (a &&& Config.pspaceMask) =
      (TableRow.w mask pattern).selects (.w (busWord 1#4 org we a v)) := by
  rw [Bool.eq_iff_iff, TableRow.selects, beq_iff_eq, hm, hp, busWord_masked, ← BitVec.and_assoc,
    block_iff _ k c hk hc, Nat.div_eq_iff (by positivity)]
  simp only [inRange, Bool.and_eq_true, decide_eq_true_eq]
  rw [add_mul] at hhi
  omega

/-- A row of one address. -/
theorem rowOne {org : Origin} {we : Bool} {v : Byte} {mask pattern : OpWord} (a : Addr)
    (hm : mask = opWord 15#4 9#4 (BitVec.allOnes 16) 0#8)
    (hp : pattern = opWord 0#4 (0#3 ++ BitVec.ofBool we) a 0#8) :
    true = (TableRow.w mask pattern).selects (.w (busWord 0#4 org we a v)) := by
  rw [Bool.eq_iff_iff, TableRow.selects, beq_iff_eq, hm, hp, busWord_masked, BitVec.and_allOnes]
  simp

/-- A row that fixes unit and function alone. -/
theorem rowFn (u f : BitVec 4) (arg : BitVec 16) {mask pattern : OpWord}
    (hm : mask = opWord 15#4 15#4 0#16 0#8) (hp : pattern = opWord u f 0#16 0#8) :
    true = (TableRow.w mask pattern).selects (.w (opWord u f arg 0#8)) := by
  have hu : ∀ u : BitVec 4, u &&& 15#4 = u := by decide
  rw [Bool.eq_iff_iff, TableRow.selects, beq_iff_eq, hm, hp, opWord_and, hu, hu]
  simp

theorem cRamRd (org : Origin) (a : Addr) : Statement (.cRamRd org a) :=
  rowC 13 0x0 (by decide) (by decide) (by decide) (by decide) (by decide) (by decide)
theorem cRamWr (org : Origin) (a : Addr) (v : Byte) : Statement (.cRamWr org a v) :=
  rowC 13 0x0 (by decide) (by decide) (by decide) (by decide) (by decide) (by decide)
theorem cPpuregRd (org : Origin) (a : Addr) : Statement (.cPpuregRd org a) :=
  rowC 13 0x1 (by decide) (by decide) (by decide) (by decide) (by decide) (by decide)
theorem cPpuregWr (org : Origin) (a : Addr) (v : Byte) : Statement (.cPpuregWr org a v) :=
  rowC 13 0x1 (by decide) (by decide) (by decide) (by decide) (by decide) (by decide)
theorem cApuRd4000 (org : Origin) (a : Addr) : Statement (.cApuRd4000 org a) :=
  rowC 4 0x400 (by decide) (by decide) (by decide) (by decide) (by decide) (by decide)
theorem cApuRd4010 (org : Origin) (a : Addr) : Statement (.cApuRd4010 org a) :=
  rowC 2 0x1004 (by decide) (by decide) (by decide) (by decide) (by decide) (by decide)
theorem cApuRd4015 (org : Origin) : Statement (.cApuRd4015 org) :=
  rowOne _ (by decide) (by decide)
theorem cApuRd4017 (org : Origin) : Statement (.cApuRd4017 org) :=
  rowOne _ (by decide) (by decide)
theorem cApuWr4000 (org : Origin) (a : Addr) (v : Byte) : Statement (.cApuWr4000 org a v) :=
  rowC 4 0x400 (by decide) (by decide) (by decide) (by decide) (by decide) (by decide)
theorem cApuWr4010 (org : Origin) (a : Addr) (v : Byte) : Statement (.cApuWr4010 org a v) :=
  rowC 2 0x1004 (by decide) (by decide) (by decide) (by decide) (by decide) (by decide)
theorem cApuWr4015 (org : Origin) (v : Byte) : Statement (.cApuWr4015 org v) :=
  rowOne _ (by decide) (by decide)
theorem cApuWr4017 (org : Origin) (v : Byte) : Statement (.cApuWr4017 org v) :=
  rowOne _ (by decide) (by decide)
theorem cOamdmaRd (org : Origin) : Statement (.cOamdmaRd org) :=
  rowOne _ (by decide) (by decide)
theorem cOamdmaWr (org : Origin) (v : Byte) : Statement (.cOamdmaWr org v) :=
  rowOne _ (by decide) (by decide)
theorem cCtrlRd (org : Origin) : Statement (.cCtrlRd org) :=
  rowOne _ (by decide) (by decide)
theorem cCtrlWr (org : Origin) (v : Byte) : Statement (.cCtrlWr org v) :=
  rowOne _ (by decide) (by decide)
theorem cNoneRd4018 (org : Origin) (a : Addr) : Statement (.cNoneRd4018 org a) :=
  rowC 3 0x803 (by decide) (by decide) (by decide) (by decide) (by decide) (by decide)
theorem cNoneRd4020 (org : Origin) (a : Addr) : Statement (.cNoneRd4020 org a) :=
  rowC 5 0x201 (by decide) (by decide) (by decide) (by decide) (by decide) (by decide)
theorem cNoneRd4040 (org : Origin) (a : Addr) : Statement (.cNoneRd4040 org a) :=
  rowC 6 0x101 (by decide) (by decide) (by decide) (by decide) (by decide) (by decide)
theorem cNoneRd4080 (org : Origin) (a : Addr) : Statement (.cNoneRd4080 org a) :=
  rowC 7 0x81 (by decide) (by decide) (by decide) (by decide) (by decide) (by decide)
theorem cNoneRd4100 (org : Origin) (a : Addr) : Statement (.cNoneRd4100 org a) :=
  rowC 8 0x41 (by decide) (by decide) (by decide) (by decide) (by decide) (by decide)
theorem cNoneRd4200 (org : Origin) (a : Addr) : Statement (.cNoneRd4200 org a) :=
  rowC 9 0x21 (by decide) (by decide) (by decide) (by decide) (by decide) (by decide)
theorem cNoneRd4400 (org : Origin) (a : Addr) : Statement (.cNoneRd4400 org a) :=
  rowC 10 0x11 (by decide) (by decide) (by decide) (by decide) (by decide) (by decide)
theorem cNoneRd4800 (org : Origin) (a : Addr) : Statement (.cNoneRd4800 org a) :=
  rowC 11 0x9 (by decide) (by decide) (by decide) (by decide) (by decide) (by decide)
theorem cNoneRd5000 (org : Origin) (a : Addr) : Statement (.cNoneRd5000 org a) :=
  rowC 12 0x5 (by decide) (by decide) (by decide) (by decide) (by decide) (by decide)
theorem cNoneWr4018 (org : Origin) (a : Addr) (v : Byte) : Statement (.cNoneWr4018 org a v) :=
  rowC 3 0x803 (by decide) (by decide) (by decide) (by decide) (by decide) (by decide)
theorem cNoneWr4020 (org : Origin) (a : Addr) (v : Byte) : Statement (.cNoneWr4020 org a v) :=
  rowC 5 0x201 (by decide) (by decide) (by decide) (by decide) (by decide) (by decide)
theorem cNoneWr4040 (org : Origin) (a : Addr) (v : Byte) : Statement (.cNoneWr4040 org a v) :=
  rowC 6 0x101 (by decide) (by decide) (by decide) (by decide) (by decide) (by decide)
theorem cNoneWr4080 (org : Origin) (a : Addr) (v : Byte) : Statement (.cNoneWr4080 org a v) :=
  rowC 7 0x81 (by decide) (by decide) (by decide) (by decide) (by decide) (by decide)
theorem cNoneWr4100 (org : Origin) (a : Addr) (v : Byte) : Statement (.cNoneWr4100 org a v) :=
  rowC 8 0x41 (by decide) (by decide) (by decide) (by decide) (by decide) (by decide)
theorem cNoneWr4200 (org : Origin) (a : Addr) (v : Byte) : Statement (.cNoneWr4200 org a v) :=
  rowC 9 0x21 (by decide) (by decide) (by decide) (by decide) (by decide) (by decide)
theorem cNoneWr4400 (org : Origin) (a : Addr) (v : Byte) : Statement (.cNoneWr4400 org a v) :=
  rowC 10 0x11 (by decide) (by decide) (by decide) (by decide) (by decide) (by decide)
theorem cNoneWr4800 (org : Origin) (a : Addr) (v : Byte) : Statement (.cNoneWr4800 org a v) :=
  rowC 11 0x9 (by decide) (by decide) (by decide) (by decide) (by decide) (by decide)
theorem cNoneWr5000 (org : Origin) (a : Addr) (v : Byte) : Statement (.cNoneWr5000 org a v) :=
  rowC 12 0x5 (by decide) (by decide) (by decide) (by decide) (by decide) (by decide)
theorem cCartRd6000 (org : Origin) (a : Addr) : Statement (.cCartRd6000 org a) :=
  rowC 13 0x3 (by decide) (by decide) (by decide) (by decide) (by decide) (by decide)
theorem cCartRd8000 (org : Origin) (a : Addr) : Statement (.cCartRd8000 org a) :=
  rowC 15 0x1 (by decide) (by decide) (by decide) (by decide) (by decide) (by decide)
theorem cCartWr6000 (org : Origin) (a : Addr) (v : Byte) : Statement (.cCartWr6000 org a v) :=
  rowC 13 0x3 (by decide) (by decide) (by decide) (by decide) (by decide) (by decide)
theorem cCartWr8000 (org : Origin) (a : Addr) (v : Byte) : Statement (.cCartWr8000 org a v) :=
  rowC 15 0x1 (by decide) (by decide) (by decide) (by decide) (by decide) (by decide)
theorem pCartRd (org : Origin) (a : Addr) : Statement (.pCartRd org a) :=
  rowP 13 0x0 (by decide) (by decide) (by decide) (by decide) (by decide) (by decide)
theorem pCartWr (org : Origin) (a : Addr) (v : Byte) : Statement (.pCartWr org a v) :=
  rowP 13 0x0 (by decide) (by decide) (by decide) (by decide) (by decide) (by decide)
theorem pVramRd2000 (org : Origin) (a : Addr) : Statement (.pVramRd2000 org a) :=
  rowP 12 0x2 (by decide) (by decide) (by decide) (by decide) (by decide) (by decide)
theorem pVramRd3000 (org : Origin) (a : Addr) : Statement (.pVramRd3000 org a) :=
  rowP 11 0x6 (by decide) (by decide) (by decide) (by decide) (by decide) (by decide)
theorem pVramRd3800 (org : Origin) (a : Addr) : Statement (.pVramRd3800 org a) :=
  rowP 10 0xE (by decide) (by decide) (by decide) (by decide) (by decide) (by decide)
theorem pVramRd3C00 (org : Origin) (a : Addr) : Statement (.pVramRd3C00 org a) :=
  rowP 9 0x1E (by decide) (by decide) (by decide) (by decide) (by decide) (by decide)
theorem pVramRd3E00 (org : Origin) (a : Addr) : Statement (.pVramRd3E00 org a) :=
  rowP 8 0x3E (by decide) (by decide) (by decide) (by decide) (by decide) (by decide)
theorem pVramWr2000 (org : Origin) (a : Addr) (v : Byte) : Statement (.pVramWr2000 org a v) :=
  rowP 12 0x2 (by decide) (by decide) (by decide) (by decide) (by decide) (by decide)
theorem pVramWr3000 (org : Origin) (a : Addr) (v : Byte) : Statement (.pVramWr3000 org a v) :=
  rowP 11 0x6 (by decide) (by decide) (by decide) (by decide) (by decide) (by decide)
theorem pVramWr3800 (org : Origin) (a : Addr) (v : Byte) : Statement (.pVramWr3800 org a v) :=
  rowP 10 0xE (by decide) (by decide) (by decide) (by decide) (by decide) (by decide)
theorem pVramWr3C00 (org : Origin) (a : Addr) (v : Byte) : Statement (.pVramWr3C00 org a v) :=
  rowP 9 0x1E (by decide) (by decide) (by decide) (by decide) (by decide) (by decide)
theorem pVramWr3E00 (org : Origin) (a : Addr) (v : Byte) : Statement (.pVramWr3E00 org a v) :=
  rowP 8 0x3E (by decide) (by decide) (by decide) (by decide) (by decide) (by decide)
theorem pPalRd (org : Origin) (a : Addr) : Statement (.pPalRd org a) :=
  rowP 8 0x3F (by decide) (by decide) (by decide) (by decide) (by decide) (by decide)
theorem pPalWr (org : Origin) (a : Addr) (v : Byte) : Statement (.pPalWr org a v) :=
  rowP 8 0x3F (by decide) (by decide) (by decide) (by decide) (by decide) (by decide)
theorem irqReg (id : SrcId) : Statement (.irqReg id) :=
  rowFn _ _ _ (by decide) (by decide)
theorem irqPoll : Statement (.irqPoll) :=
  rowFn _ _ _ (by decide) (by decide)
theorem srcSet (id : SrcId) : Statement (.srcSet id) :=
  rowFn _ _ _ (by decide) (by decide)
theorem srcClr (id : SrcId) : Statement (.srcClr id) :=
  rowFn _ _ _ (by decide) (by decide)
theorem clkStart : Statement (.clkStart) :=
  rowFn _ _ _ (by decide) (by decide)
theorem clkTick : Statement (.clkTick) :=
  rowFn _ _ _ (by decide) (by decide)
theorem clkShutdown : Statement (.clkShutdown) :=
  rowFn _ _ _ (by decide) (by decide)
theorem imgWrite : Statement (.imgWrite) :=
  rowFn _ _ _ (by decide) (by decide)
theorem imgRead : Statement (.imgRead) :=
  rowFn _ _ _ (by decide) (by decide)
theorem ctrlWrite : Statement (.ctrlWrite) :=
  rowFn _ _ _ (by decide) (by decide)
theorem ctrlRead : Statement (.ctrlRead) :=
  rowFn _ _ _ (by decide) (by decide)
theorem seqIdle : Statement (.seqIdle) :=
  by rw [Statement]; decide
theorem seqTop : Statement (.seqTop) :=
  by rw [Statement]; decide
theorem seqCpu : Statement (.seqCpu) :=
  by rw [Statement]; decide
theorem seqApu : Statement (.seqApu) :=
  by rw [Statement]; decide
theorem seqPpu0 : Statement (.seqPpu0) :=
  by rw [Statement]; decide
theorem seqPpu1 : Statement (.seqPpu1) :=
  by rw [Statement]; decide
theorem seqPpu2 : Statement (.seqPpu2) :=
  by rw [Statement]; decide
theorem seqPace : Statement (.seqPace) :=
  by rw [Statement]; decide
theorem seqDrain : Statement (.seqDrain) :=
  by rw [Statement]; decide
theorem seqHalt : Statement (.seqHalt) :=
  by rw [Statement]; decide

end Sys2Proof.Laws.TableRow
end

