-- ==== Sys2Proof/Laws/Step.lean ====
section
/-! SUPPORT. Everything one step can do, said once: it waits, or leaves the sequencer alone, or advances it. -/

namespace Sys2Proof.Machine

/-! ## Which instructions the two formats give -/

/-- The rows of format `S`. -/
def isSeq : Instr → Bool
  | .seqIdle => true
  | .seqTop => true
  | .seqCpu => true
  | .seqApu => true
  | .seqPpu0 => true
  | .seqPpu1 => true
  | .seqPpu2 => true
  | .seqPace => true
  | .seqDrain => true
  | .seqHalt => true
  | _ => false

/-- The row the sequencer's position selects (R98); none at `S == 01111`. -/
theorem decodeS_position (s : State) : decodeS (positionWord s) =
    match s.cstate, s.slot with
    | .idle, _ => .ok .seqIdle
    | .running, .top => .ok .seqTop
    | .running, .cpu => .ok .seqCpu
    | .running, .apu => .ok .seqApu
    | .running, .ppu0 => .ok .seqPpu0
    | .running, .ppu1 => .ok .seqPpu1
    | .running, .ppu2 => .ok .seqPpu2
    | .running, .pace => .ok .seqPace
    | .running, .unused7 => .error .unusedSlot
    | .stopping, _ => .ok .seqDrain
    | .stopped, _ => .ok .seqHalt := by
  rw [positionWord]
  generalize s.cstate = c
  generalize s.slot = l
  cases c <;> cases l <;> decide

/-- A step, by what `fetch` answers. -/
theorem step_ok {s : State} {i : Instr} (h : fetch s = .ok i) : step s = exec i (latch s) := by simp [step, h]

theorem step_error {s : State} {e : Reject} (h : fetch s = .error e) : step s = .next (refuseWord (latch s)) := by
  simp [step, h]

/-! ## The sequencer moves -/

/-- The operations that move the coordinator or a counter, each from the position it is performed at, and what the
collaborator called in between leaves. -/
inductive Advance : Instr → State → State → Prop where
  | start {s m : State} : s.cstate = .idle → s.cartOk = true → Leaves s m →
      Advance .clkStart s { m with audioPlay := true, tPrev := s.port.inputs.now, batchCnt := 0, slot := .top,
                                   cstate := .running }
  | stop {s : State} {i : Instr} : i = .seqTop ∨ i = .clkTick → s.cstate = .running → s.slot = .top →
      s.shutdownLatch = true → Advance i s { s with cstate := .stopping }
  | go {s : State} {i : Instr} : s.cstate = .running → s.slot = .top → Advance i s { s with slot := .cpu }
  | cpu {s m : State} {i : Instr} : s.cstate = .running → s.slot = .cpu → Leaves s m →
      Advance i s { m with nCpu := s.nCpu + 1, slot := .apu }
  | apu {s m : State} {i : Instr} : s.cstate = .running → s.slot = .apu → s.apuPhase = true → Leaves s m →
      Advance i s { m with nApu := s.nApu + 1, apuPhase := false, slot := .ppu0 }
  | skip {s : State} {i : Instr} : s.cstate = .running → s.slot = .apu → s.apuPhase = false →
      Advance i s { s with apuPhase := true, slot := .ppu0 }
  | ppu0 {s m : State} {i : Instr} : s.cstate = .running → s.slot = .ppu0 → Leaves s m →
      Advance i s { m with nPpu := s.nPpu + 1, slot := .ppu1 }
  | ppu1 {s m : State} {i : Instr} : s.cstate = .running → s.slot = .ppu1 → Leaves s m →
      Advance i s { m with nPpu := s.nPpu + 1, slot := .ppu2 }
  | ppu2 {s m : State} {i : Instr} : s.cstate = .running → s.slot = .ppu2 → Leaves s m →
      Advance i s { m with nPpu := s.nPpu + 1, batchCnt := s.batchCnt + 1,
                           slot := if s.batchCnt + 1 = s.cfg.batch then .pace else .cpu }
  | pace {s m : State} {i : Instr} (w : Time) : s.cstate = .running → s.slot = .pace → Leaves s m →
      Advance i s { m with tPrev := w, batchCnt := 0, slot := .top }
  | drain {s : State} {i : Instr} : i = .seqDrain ∨ i = .clkTick → s.cstate = .stopping →
      Advance i s { s with audioPlay := false, cstate := .stopped }

theorem leaves_pacing (s : State) : Leaves s (pacing s) := by
  unfold pacing
  split
  · exact leaves_emit _ s
  · exact (leaves_emit _ s).trans (leaves_emit _ _)

theorem tickPpu_some {s t : State} (h : tickPpu s = some t) :
    ∃ m, Leaves s m ∧ t = { m with nPpu := s.nPpu + 1 } := by
  obtain ⟨m, hm, rfl⟩ := Option.map_eq_some_iff.mp h
  exact ⟨m, (leaves_emit _ s).trans (keeps_entry _ s _ m hm), rfl⟩

theorem cpuOp_some {s t : State} (h : cpuOp s = some t) :
    ∃ m, Leaves s m ∧ t = { m with nCpu := s.nCpu + 1, slot := .apu } := by
  obtain ⟨m, hm, rfl⟩ := Option.map_eq_some_iff.mp h
  exact ⟨m, (leaves_emit _ s).trans (keeps_entry _ s _ m hm), rfl⟩

/-- Everything a turn of the emulation agent can do (R187). -/
theorem microOp_some {s t : State} {i : Instr} (h : microOp s = some t)
    (hi : i = .clkTick ∨ decodeS (positionWord s) = .ok i) : Leaves s t ∨ Advance i s t := by
  rw [decodeS_position] at hi
  unfold microOp at h
  cases hc : s.cstate <;> simp only [hc] at h hi
  · obtain rfl := Option.some.inj h; exact .inl (Leaves.refl s)
  · cases hl : s.slot <;> simp only [hl] at h hi
    · obtain rfl := Option.some.inj h
      unfold topOp
      split
      · rename_i hx
        exact .inr (.stop (by rcases hi with rfl | hi; exacts [.inr rfl, .inl (Except.ok.inj hi).symm]) hc hl hx)
      · exact .inr (.go hc hl)
    · obtain ⟨m, hm, rfl⟩ := cpuOp_some h; exact .inr (.cpu hc hl hm)
    · unfold apuOp at h
      split at h
      · rename_i hx
        obtain ⟨m, hm, rfl⟩ := Option.map_eq_some_iff.mp h
        exact .inr (.apu hc hl hx ((leaves_emit _ s).trans (keeps_entry _ s _ m hm)))
      · rename_i hx
        obtain rfl := Option.some.inj h
        exact .inr (.skip hc hl (by simpa using hx))
    · obtain ⟨u, hu, rfl⟩ := Option.map_eq_some_iff.mp h
      obtain ⟨m, hm, rfl⟩ := tickPpu_some hu
      exact .inr (Advance.ppu0 (m := m) hc hl hm)
    · obtain ⟨u, hu, rfl⟩ := Option.map_eq_some_iff.mp h
      obtain ⟨m, hm, rfl⟩ := tickPpu_some hu
      exact .inr (Advance.ppu1 (m := m) hc hl hm)
    · obtain ⟨u, hu, rfl⟩ := Option.map_eq_some_iff.mp h
      obtain ⟨m, hm, rfl⟩ := tickPpu_some hu
      exact .inr (Advance.ppu2 (m := m) hc hl hm)
    · obtain rfl := Option.some.inj h; exact .inr (.pace _ hc hl (leaves_pacing s))
    · obtain rfl := Option.some.inj h; exact .inl (leaves_emit _ s)
  · obtain rfl := Option.some.inj h
    exact .inr (.drain (by rcases hi with rfl | hi; exacts [.inr rfl, .inl (Except.ok.inj hi).symm]) hc)
  · obtain rfl := Option.some.inj h; exact .inl (Leaves.refl s)

/-! ## The meanings -/

theorem finish_next {r : Option State} {s t : State} (h : finish r s = .next t) : r = some t ∨ t = wait s := by
  cases r with
  | none => exact .inr (by simpa [finish, eq_comm] using h)
  | some u => exact .inl (by simpa [finish] using h)

theorem bus_next {r : Option State} {s t : State} (h : bus r s = .next t) : r = some t ∨ t = wait s := by
  unfold bus at h
  split at h
  · exact finish_next h
  · cases h

theorem busRead_next {sp : Space} {o : Owner} {ra : Addr} {org : Origin} {s t : State}
    (h : busRead sp o ra org s = .next t) : t = wait s ∨ Leaves s t :=
  (bus_next h).symm.imp id fun h => keeps_readOwner sp o (keeps_entry _ s) ra org _ s t h

theorem busWrite_next {sp : Space} {o : Owner} {ra : Addr} {org : Origin} {v : Byte} {s t : State}
    (hram : o = .ram → ra.toNat < Config.ramSize) (h : busWrite sp o ra org v s = .next t) :
    t = wait s ∨ Leaves s t :=
  (bus_next h).symm.imp id fun h => keeps_writeOwner sp o (keeps_entry _ s) ra org v hram s t h

theorem resetThenPlay_some {s t : State} (h : resetThenPlay s = some t) : Leaves s t := by
  obtain ⟨m, hm, ht⟩ := Option.bind_eq_some_iff.mp h
  exact ((leaves_emit _ s).trans (keeps_entry _ s _ m hm)).trans ((leaves_emit _ m).trans (keeps_playEntry s _ t ht))

theorem startOp_some {s t : State} (h : startOp s = some t) : Leaves s t ∨ Advance .clkStart s t := by
  unfold startOp at h
  split at h
  · rename_i hx
    obtain ⟨m, hm, rfl⟩ := Option.map_eq_some_iff.mp h
    exact .inr (.start hx.1 hx.2 (resetThenPlay_some hm))
  · obtain rfl := Option.some.inj h; exact .inl (Leaves.refl s)

/-- Everything an operation can do from a state in which it may be performed: it waits for a lock, or leaves what
`control` holds, or moves the sequencer. -/
theorem exec_next {i : Instr} {s t : State} (hi : isSeq i = true → decodeS (positionWord s) = .ok i)
    (h : exec i s = .next t) : t = wait s ∨ Leaves s t ∨ Advance i s t := by
  have hr : ∀ {x : Prop}, t = wait s ∨ Leaves s t → t = wait s ∨ Leaves s t ∨ x := fun h => h.imp id .inl
  have hs : ∀ {f : State}, Host.Outcome.next f = (Host.Outcome.next t : Host.Outcome State Fault Refusal) →
      f = t := fun h => by simpa using h
  have hm : ∀ {r : Option State}, finish r s = .next t → microOp s = r → isSeq i = true →
      t = wait s ∨ Leaves s t ∨ Advance i s t := fun h hf h1 => by
    rcases finish_next h with h | h
    · exact .inr (microOp_some (hf.trans h) (.inr (hi h1)))
    · exact .inl h
  have hp := fun h1 => (decodeS_position s).symm.trans (hi h1)
  have ho : ∀ {f : State}, Host.Outcome.next f = (Host.Outcome.next t : Host.Outcome State Fault Refusal) →
      microOp s = some f → isSeq i = true → t = wait s ∨ Leaves s t ∨ Advance i s t := fun h hf h1 => by
    obtain rfl := hs h
    exact .inr (microOp_some hf (.inr (hi h1)))
  cases i
  case irqReg id => obtain rfl := hs h; exact .inr (.inl (leaves_irqRegOp id s))
  case irqPoll => obtain rfl := hs h; exact .inr (.inl (leaves_emit _ s))
  case srcSet id => obtain rfl := hs h; exact .inr (.inl (leaves_srcSetOp id s))
  case srcClr id => obtain rfl := hs h; exact .inr (.inl (leaves_srcClrOp id s))
  case clkShutdown => obtain rfl := hs h; exact .inr (.inl (leaves_shutdownOp s))
  case clkStart =>
    rcases finish_next h with h | h
    · exact .inr (startOp_some h)
    · exact .inl h
  case clkTick =>
    rcases finish_next h with h | h
    · exact .inr (microOp_some h (.inl rfl))
    · exact .inl h
  case imgWrite => exact hr ((finish_next h).symm.imp id (keeps_imgWriteOp _ _ _ s t))
  case imgRead => exact hr ((finish_next h).symm.imp id (keeps_imgReadOp s t))
  case ctrlWrite => exact hr ((finish_next h).symm.imp id (keeps_ctrlWriteOp _ s t))
  case ctrlRead => exact hr ((finish_next h).symm.imp id (keeps_ctrlReadOp s t))
  case seqIdle => obtain rfl := hs h; exact .inr (.inl (Leaves.refl s))
  case seqHalt => obtain rfl := hs h; exact .inr (.inl (Leaves.refl s))
  case cRamWr org a v => exact hr (busWrite_next (fun _ => and_ramMask_lt a) h)
  case seqTop =>
    refine ho h ?_ rfl
    have := hp rfl
    unfold microOp
    split at this <;> simp_all
  case seqPace =>
    refine ho h ?_ rfl
    have := hp rfl
    unfold microOp
    split at this <;> simp_all
  case seqDrain =>
    refine ho h ?_ rfl
    have := hp rfl
    unfold microOp
    split at this <;> simp_all
  case seqCpu =>
    refine hm h ?_ rfl
    have := hp rfl
    unfold microOp
    split at this <;> simp_all
  case seqApu =>
    refine hm h ?_ rfl
    have := hp rfl
    unfold microOp
    split at this <;> simp_all
  case seqPpu0 =>
    refine hm h ?_ rfl
    have := hp rfl
    unfold microOp
    split at this <;> simp_all
  case seqPpu1 =>
    refine hm h ?_ rfl
    have := hp rfl
    unfold microOp
    split at this <;> simp_all
  case seqPpu2 =>
    refine hm h ?_ rfl
    have := hp rfl
    unfold microOp
    split at this <;> simp_all
  all_goals first
    | exact hr (busRead_next h)
    | exact hr (busWrite_next (by simp) h)

/-! ## The step -/

/-- Latching an operation changes only the presentation (R17). -/
theorem latch_frame (s : State) :
    { latch s with port := s.port, inbox := s.inbox, draws := s.draws } = s := by
  unfold latch
  split <;> rfl

@[simp] theorem latch_cstate (s : State) : (latch s).cstate = s.cstate := by unfold latch; split <;> rfl
@[simp] theorem latch_slot (s : State) : (latch s).slot = s.slot := by unfold latch; split <;> rfl
@[simp] theorem latch_cfg (s : State) : (latch s).cfg = s.cfg := by unfold latch; split <;> rfl
@[simp] theorem latch_cartOk (s : State) : (latch s).cartOk = s.cartOk := by unfold latch; split <;> rfl
@[simp] theorem latch_shutdownLatch (s : State) : (latch s).shutdownLatch = s.shutdownLatch := by
  unfold latch; split <;> rfl
@[simp] theorem latch_src (s : State) : (latch s).src = s.src := by unfold latch; split <;> rfl
@[simp] theorem latch_trace (s : State) : (latch s).trace = s.trace := by unfold latch; split <;> rfl

/-- No word of format `W` is a row of format `S`. -/
theorem decodeW_not_seq {w : OpWord} {i : Instr} (h : decodeW w = .ok i) : isSeq i = false := by
  have hb : ∀ {rd wr}, (∀ o a, isSeq (rd o a) = false) → (∀ o a v, isSeq (wr o a v) = false) →
      decodeBus rd wr w = .ok i → isSeq i = false := by
    intro rd wr h1 h2 h
    unfold decodeBus at h
    split at h
    · cases h
    · split at h
      · obtain rfl := Except.ok.inj h; exact h2 _ _ _
      · obtain rfl := Except.ok.inj h; exact h1 _ _
  have h1 : ∀ o a, isSeq (decodeCRead o a) = false := by
    intro o a; apply decodeCRead_elim (P := fun i => isSeq i = false) <;> exact fun _ => rfl
  have h2 : ∀ o a v, isSeq (decodeCWrite o a v) = false := by
    intro o a v; apply decodeCWrite_elim (P := fun i => isSeq i = false) <;> exact fun _ => rfl
  have h3 : ∀ o a, isSeq (decodePRead o a) = false := by
    intro o a; apply decodePRead_elim (P := fun i => isSeq i = false) <;> exact fun _ => rfl
  have h4 : ∀ o a v, isSeq (decodePWrite o a v) = false := by
    intro o a v; apply decodePWrite_elim (P := fun i => isSeq i = false) <;> exact fun _ => rfl
  unfold decodeW at h
  split at h
  · exact hb h1 h2 h
  split at h
  · exact hb h3 h4 h
  simp only [decodeIrq, decodeClk, decodeSfs] at h
  repeat' split at h
  all_goals first
    | (obtain rfl := Except.ok.inj h; rfl)
    | cases h

/-- A format `S` row is fetched only at its own position. -/
theorem fetch_seq {s : State} {i : Instr} (h : fetch s = .ok i) (hi : isSeq i = true) :
    decodeS (positionWord (latch s)) = .ok i := by
  unfold fetch codeOf at h
  split at h
  · rw [decode] at h
    rw [decodeW_not_seq h] at hi
    cases hi
  · exact h

/-- Everything a step can do. -/
theorem step_next {s t : State} (h : step s = .next t) :
    t = wait (latch s) ∨ Leaves (latch s) t ∨ ∃ i, fetch s = .ok i ∧ Advance i (latch s) t := by
  cases hf : fetch s with
  | error e =>
    rw [step_error hf] at h
    obtain rfl : refuseWord (latch s) = t := by simpa using h
    exact .inr (.inl (leaves_emit _ _))
  | ok i =>
    rw [step_ok hf] at h
    rcases exec_next (fetch_seq hf) h with h | h | h
    · exact .inl h
    · exact .inr (.inl h)
    · exact .inr (.inr ⟨i, rfl, h⟩)

end Sys2Proof.Machine
end

