-- ==== Sys2Proof/Tests/Slice0.lean ====
section
/-! SUPPORT. Tests. Expected results are those of spec/95_test_vectors.md (the section or program is named at each), or
worked out by hand from the rule named. After them the witnesses: for every obligation with hypotheses, states and
operands that meet them. -/

namespace Sys2Proof.Tests

open Sys2Proof Sys2Proof.Machine

/-! ## Helpers -/

/-- The next state of an outcome, if it is one. -/
def nextOf : Host.Outcome State Fault Refusal → Option State
  | .next t => some t
  | .fault _ => none
  | .refused _ => none

/-- The state in which a word is presented with some inputs. -/
def present (w : OpWord) (inp : Inputs) (s : State) : State := { s with inbox := [.word w inp] }

/-- One step with a word presented, the device answering `0x99`. -/
def run (w : OpWord) (s : State) : Option State := nextOf (step (present w { placedInputs with devRd := 0x99#8 } s))

/-- The outputs of that step. -/
def outputs (w : OpWord) (s : State) : Option (List Output) := (run w s).map (·.trace)

/-- `Running` at a slot, as from power-on. -/
def at_ (slot : Slot) : State := { State.reset with cstate := .running, slot := slot, audioPlay := true }

/-- One turn of the emulation agent with given times. -/
def turn (now wake : Nat) (s : State) : Option State :=
  nextOf (step { s with inbox := [.tick { quietInputs with now := BitVec.ofNat 64 now, wake := BitVec.ofNat 64 wake }] })

/-! ## Well-formedness: each address check refuses an address below or above its block -/

theorem test_illFormed_processor :
    List.all [
      .cRamRd 0#2 0x2000#16, .cRamWr 0#2 0x2000#16 0#8, .cPpuregRd 0#2 0x1FFF#16,
      .cPpuregRd 0#2 0x4000#16, .cPpuregWr 0#2 0x1FFF#16 0#8, .cPpuregWr 0#2 0x4000#16 0#8,
      .cApuRd4000 0#2 0x3FFF#16, .cApuRd4000 0#2 0x4010#16, .cApuRd4010 0#2 0x400F#16,
      .cApuRd4010 0#2 0x4014#16, .cApuWr4000 0#2 0x3FFF#16 0#8, .cApuWr4000 0#2 0x4010#16 0#8,
      .cApuWr4010 0#2 0x400F#16 0#8, .cApuWr4010 0#2 0x4014#16 0#8, .cNoneRd4018 0#2 0x4017#16,
      .cNoneRd4018 0#2 0x4020#16, .cNoneRd4020 0#2 0x401F#16, .cNoneRd4020 0#2 0x4040#16,
      .cNoneRd4040 0#2 0x403F#16, .cNoneRd4040 0#2 0x4080#16, .cNoneRd4080 0#2 0x407F#16,
      .cNoneRd4080 0#2 0x4100#16, .cNoneRd4100 0#2 0x40FF#16, .cNoneRd4100 0#2 0x4200#16,
      .cNoneRd4200 0#2 0x41FF#16, .cNoneRd4200 0#2 0x4400#16, .cNoneRd4400 0#2 0x43FF#16,
      .cNoneRd4400 0#2 0x4800#16, .cNoneRd4800 0#2 0x47FF#16, .cNoneRd4800 0#2 0x5000#16,
      .cNoneRd5000 0#2 0x4FFF#16, .cNoneRd5000 0#2 0x6000#16, .cNoneWr4018 0#2 0x4017#16 0#8,
      .cNoneWr4018 0#2 0x4020#16 0#8, .cNoneWr4020 0#2 0x401F#16 0#8, .cNoneWr4020 0#2 0x4040#16 0#8,
      .cNoneWr4040 0#2 0x403F#16 0#8, .cNoneWr4040 0#2 0x4080#16 0#8, .cNoneWr4080 0#2 0x407F#16 0#8,
      .cNoneWr4080 0#2 0x4100#16 0#8, .cNoneWr4100 0#2 0x40FF#16 0#8, .cNoneWr4100 0#2 0x4200#16 0#8,
      .cNoneWr4200 0#2 0x41FF#16 0#8, .cNoneWr4200 0#2 0x4400#16 0#8, .cNoneWr4400 0#2 0x43FF#16 0#8,
      .cNoneWr4400 0#2 0x4800#16 0#8, .cNoneWr4800 0#2 0x47FF#16 0#8, .cNoneWr4800 0#2 0x5000#16 0#8,
      .cNoneWr5000 0#2 0x4FFF#16 0#8, .cNoneWr5000 0#2 0x6000#16 0#8, .cCartRd6000 0#2 0x5FFF#16,
      .cCartRd6000 0#2 0x8000#16, .cCartRd8000 0#2 0x7FFF#16, .cCartWr6000 0#2 0x5FFF#16 0#8,
      .cCartWr6000 0#2 0x8000#16 0#8, .cCartWr8000 0#2 0x7FFF#16 0#8] (fun i : Instr => !wellFormed i) = true := by decide

theorem test_illFormed_picture :
    List.all [
      .pCartRd 0#2 0x6000#16, .pCartWr 0#2 0x6000#16 0#8, .pVramRd2000 0#2 0xDFFF#16,
      .pVramRd2000 0#2 0x7000#16, .pVramRd3000 0#2 0xEFFF#16, .pVramRd3000 0#2 0x7800#16,
      .pVramRd3800 0#2 0xF7FF#16, .pVramRd3800 0#2 0x7C00#16, .pVramRd3C00 0#2 0xFBFF#16,
      .pVramRd3C00 0#2 0x7E00#16, .pVramRd3E00 0#2 0xFDFF#16, .pVramRd3E00 0#2 0x7F00#16,
      .pVramWr2000 0#2 0xDFFF#16 0#8, .pVramWr2000 0#2 0x7000#16 0#8, .pVramWr3000 0#2 0xEFFF#16 0#8,
      .pVramWr3000 0#2 0x7800#16 0#8, .pVramWr3800 0#2 0xF7FF#16 0#8, .pVramWr3800 0#2 0x7C00#16 0#8,
      .pVramWr3C00 0#2 0xFBFF#16 0#8, .pVramWr3C00 0#2 0x7E00#16 0#8, .pVramWr3E00 0#2 0xFDFF#16 0#8,
      .pVramWr3E00 0#2 0x7F00#16 0#8, .pPalRd 0#2 0xFEFF#16, .pPalWr 0#2 0xFEFF#16 0#8] (fun i : Instr => !wellFormed i) = true := by decide

theorem test_wellFormed_ends :
    wellFormed (.cRamRd 0#2 0x1FFF#16) = true ∧ wellFormed (.cCartWr8000 0#2 0xFFFF#16 0#8) = true ∧
    wellFormed (.pVramRd3E00 0#2 0xFEFF#16) = true ∧ wellFormed (.pPalWr 0#2 0xBF00#16 0#8) = true := by decide

/-! ## Decoding: words assembled from R96, the last address of each block (sections A and C) -/

theorem test_decode_processor_reads :
    decodeW 0x001FFF00#32 = .ok (.cRamRd 0#2 0x1FFF#16) ∧
    decodeW 0x003FFF00#32 = .ok (.cPpuregRd 0#2 0x3FFF#16) ∧
    decodeW 0x00400F00#32 = .ok (.cApuRd4000 0#2 0x400F#16) ∧
    decodeW 0x00401300#32 = .ok (.cApuRd4010 0#2 0x4013#16) ∧
    decodeW 0x00401500#32 = .ok (.cApuRd4015 0#2) ∧
    decodeW 0x00401700#32 = .ok (.cApuRd4017 0#2) ∧
    decodeW 0x00401400#32 = .ok (.cOamdmaRd 0#2) ∧
    decodeW 0x00401600#32 = .ok (.cCtrlRd 0#2) ∧
    decodeW 0x00401F00#32 = .ok (.cNoneRd4018 0#2 0x401F#16) ∧
    decodeW 0x00403F00#32 = .ok (.cNoneRd4020 0#2 0x403F#16) ∧
    decodeW 0x00407F00#32 = .ok (.cNoneRd4040 0#2 0x407F#16) ∧
    decodeW 0x0040FF00#32 = .ok (.cNoneRd4080 0#2 0x40FF#16) ∧
    decodeW 0x0041FF00#32 = .ok (.cNoneRd4100 0#2 0x41FF#16) ∧
    decodeW 0x0043FF00#32 = .ok (.cNoneRd4200 0#2 0x43FF#16) ∧
    decodeW 0x0047FF00#32 = .ok (.cNoneRd4400 0#2 0x47FF#16) ∧
    decodeW 0x004FFF00#32 = .ok (.cNoneRd4800 0#2 0x4FFF#16) ∧
    decodeW 0x005FFF00#32 = .ok (.cNoneRd5000 0#2 0x5FFF#16) ∧
    decodeW 0x007FFF00#32 = .ok (.cCartRd6000 0#2 0x7FFF#16) ∧
    decodeW 0x00FFFF00#32 = .ok (.cCartRd8000 0#2 0xFFFF#16) := by decide

theorem test_decode_processor_writes :
    decodeW 0x011FFFA5#32 = .ok (.cRamWr 0#2 0x1FFF#16 0xA5#8) ∧
    decodeW 0x013FFFA5#32 = .ok (.cPpuregWr 0#2 0x3FFF#16 0xA5#8) ∧
    decodeW 0x01400FA5#32 = .ok (.cApuWr4000 0#2 0x400F#16 0xA5#8) ∧
    decodeW 0x014013A5#32 = .ok (.cApuWr4010 0#2 0x4013#16 0xA5#8) ∧
    decodeW 0x014015A5#32 = .ok (.cApuWr4015 0#2 0xA5#8) ∧
    decodeW 0x014017A5#32 = .ok (.cApuWr4017 0#2 0xA5#8) ∧
    decodeW 0x014014A5#32 = .ok (.cOamdmaWr 0#2 0xA5#8) ∧
    decodeW 0x014016A5#32 = .ok (.cCtrlWr 0#2 0xA5#8) ∧
    decodeW 0x01401FA5#32 = .ok (.cNoneWr4018 0#2 0x401F#16 0xA5#8) ∧
    decodeW 0x01403FA5#32 = .ok (.cNoneWr4020 0#2 0x403F#16 0xA5#8) ∧
    decodeW 0x01407FA5#32 = .ok (.cNoneWr4040 0#2 0x407F#16 0xA5#8) ∧
    decodeW 0x0140FFA5#32 = .ok (.cNoneWr4080 0#2 0x40FF#16 0xA5#8) ∧
    decodeW 0x0141FFA5#32 = .ok (.cNoneWr4100 0#2 0x41FF#16 0xA5#8) ∧
    decodeW 0x0143FFA5#32 = .ok (.cNoneWr4200 0#2 0x43FF#16 0xA5#8) ∧
    decodeW 0x0147FFA5#32 = .ok (.cNoneWr4400 0#2 0x47FF#16 0xA5#8) ∧
    decodeW 0x014FFFA5#32 = .ok (.cNoneWr4800 0#2 0x4FFF#16 0xA5#8) ∧
    decodeW 0x015FFFA5#32 = .ok (.cNoneWr5000 0#2 0x5FFF#16 0xA5#8) ∧
    decodeW 0x017FFFA5#32 = .ok (.cCartWr6000 0#2 0x7FFF#16 0xA5#8) ∧
    decodeW 0x01FFFFA5#32 = .ok (.cCartWr8000 0#2 0xFFFF#16 0xA5#8) := by decide

theorem test_decode_picture :
    decodeW 0x125FFF00#32 = .ok (.pCartRd 1#2 0x5FFF#16) ∧
    decodeW 0x135FFF5A#32 = .ok (.pCartWr 1#2 0x5FFF#16 0x5A#8) ∧
    decodeW 0x126FFF00#32 = .ok (.pVramRd2000 1#2 0x6FFF#16) ∧
    decodeW 0x1277FF00#32 = .ok (.pVramRd3000 1#2 0x77FF#16) ∧
    decodeW 0x127BFF00#32 = .ok (.pVramRd3800 1#2 0x7BFF#16) ∧
    decodeW 0x127DFF00#32 = .ok (.pVramRd3C00 1#2 0x7DFF#16) ∧
    decodeW 0x127EFF00#32 = .ok (.pVramRd3E00 1#2 0x7EFF#16) ∧
    decodeW 0x136FFF5A#32 = .ok (.pVramWr2000 1#2 0x6FFF#16 0x5A#8) ∧
    decodeW 0x1377FF5A#32 = .ok (.pVramWr3000 1#2 0x77FF#16 0x5A#8) ∧
    decodeW 0x137BFF5A#32 = .ok (.pVramWr3800 1#2 0x7BFF#16 0x5A#8) ∧
    decodeW 0x137DFF5A#32 = .ok (.pVramWr3C00 1#2 0x7DFF#16 0x5A#8) ∧
    decodeW 0x137EFF5A#32 = .ok (.pVramWr3E00 1#2 0x7EFF#16 0x5A#8) ∧
    decodeW 0x127FFF00#32 = .ok (.pPalRd 1#2 0x7FFF#16) ∧
    decodeW 0x137FFF5A#32 = .ok (.pPalWr 1#2 0x7FFF#16 0x5A#8) := by decide

/-- Sections D, E, F. -/
theorem test_decode_requests :
    decodeW 0x20000100#32 = .ok (.irqReg 1#16) ∧ decodeW 0x20FFFF00#32 = .ok (.irqReg 0xFFFF#16) ∧
    decodeW 0x21000000#32 = .ok .irqPoll ∧ decodeW 0x22000200#32 = .ok (.srcSet 2#16) ∧
    decodeW 0x23000200#32 = .ok (.srcClr 2#16) ∧ decodeW 0x30000000#32 = .ok .clkStart ∧
    decodeW 0x31000000#32 = .ok .clkTick ∧ decodeW 0x32000000#32 = .ok .clkShutdown ∧
    decodeW 0x40000000#32 = .ok .imgWrite ∧ decodeW 0x45000000#32 = .ok .imgRead ∧
    decodeW 0x46000000#32 = .ok .ctrlWrite ∧ decodeW 0x43000000#32 = .ok .ctrlRead := by decide

/-- R98, bit by bit; `01111` is not an operation. -/
theorem test_decode_sequencer :
    decodeS 0b00101#5 = .ok .seqIdle ∧ decodeS 0b01000#5 = .ok .seqTop ∧ decodeS 0b01001#5 = .ok .seqCpu ∧
    decodeS 0b01010#5 = .ok .seqApu ∧ decodeS 0b01011#5 = .ok .seqPpu0 ∧ decodeS 0b01100#5 = .ok .seqPpu1 ∧
    decodeS 0b01101#5 = .ok .seqPpu2 ∧ decodeS 0b01110#5 = .ok .seqPace ∧ decodeS 0b01111#5 = .error .unusedSlot ∧
    decodeS 0b10110#5 = .ok .seqDrain ∧ decodeS 0b11001#5 = .ok .seqHalt := by decide

/-- Section A: the origin tag and the ignored bits do not change the row. -/
theorem test_decode_origin :
    decodeW 0x02200200#32 = .ok (.cPpuregRd 1#2 0x2002#16) ∧ decodeW 0x04200200#32 = .ok (.cPpuregRd 2#2 0x2002#16) ∧
    decodeW 0x06500000#32 = .ok (.cNoneRd5000 3#2 0x5000#16) ∧
    decodeW 0x000800FF#32 = .ok (.cRamRd 0#2 0x0800#16) := by decide

/-- Section G: every word there is refused. -/
theorem test_decode_reserved :
    [0x50000000#32, 0xF0000000#32, 0x08000000#32, 0x1F3F0000#32, 0x24000000#32, 0x33000000#32, 0x44000000#32,
      0x41000000#32, 0x42000000#32, 0x47000000#32, 0x48000000#32].all
      (fun w : OpWord => reservedWord w && (decodeW w).toOption.isNone) = true := by decide

/-- Sections A and F: words the encoder lays out. -/
theorem test_encode :
    encode (.cOamdmaWr 0#2 0x02#8) = .w 0x01401402#32 ∧ encode (.pPalRd 1#2 0x7F00#16) = .w 0x127F0000#32 ∧
    encode (.irqReg 0xFFFF#16) = .w 0x20FFFF00#32 ∧ encode .ctrlRead = .w 0x43000000#32 ∧
    encode .seqPace = .s 0b01110#5 := by decide

/-! ## The address maps (sections A and C): the ends of every range -/

theorem test_map_processor :
    routeC 0x0000#16 = (.ram, 0x0000#16) ∧ routeC 0x17FF#16 = (.ram, 0x07FF#16) ∧ routeC 0x1FFF#16 = (.ram, 0x07FF#16) ∧
    routeC 0x2000#16 = (.ppureg, 0x2000#16) ∧ routeC 0x2ABC#16 = (.ppureg, 0x2004#16) ∧
    routeC 0x3FFF#16 = (.ppureg, 0x2007#16) ∧ routeC 0x4000#16 = (.apu, 0x4000#16) ∧
    routeC 0x4013#16 = (.apu, 0x4013#16) ∧ routeC 0x4014#16 = (.ppureg, 0x4014#16) ∧
    routeC 0x4015#16 = (.apu, 0x4015#16) ∧ routeC 0x4016#16 = (.ctrlDev, 0x4016#16) ∧
    routeC 0x4017#16 = (.apu, 0x4017#16) ∧ routeC 0x4018#16 = (.none, 0x4018#16) ∧
    routeC 0x5FFF#16 = (.none, 0x5FFF#16) ∧ routeC 0x6000#16 = (.cart, 0x6000#16) ∧
    routeC 0xFFFF#16 = (.cart, 0xFFFF#16) := by decide

theorem test_map_picture :
    routeP 0x1FFF#16 = (.cart, 0x1FFF#16) ∧ routeP 0x2000#16 = (.vram, 0x2000#16) ∧
    routeP 0x2FFF#16 = (.vram, 0x2FFF#16) ∧ routeP 0x3000#16 = (.vram, 0x2000#16) ∧
    routeP 0x3EFF#16 = (.vram, 0x2EFF#16) ∧ routeP 0x3F00#16 = (.pal, 0x3F00#16) ∧
    routeP 0x3FFF#16 = (.pal, 0x3FFF#16) ∧ routeP 0x4000#16 = (.cart, 0x0000#16) ∧
    routeP 0x7EFF#16 = (.vram, 0x2EFF#16) ∧ routeP 0xBF10#16 = (.pal, 0x3F10#16) ∧
    routeP 0xFFFF#16 = (.pal, 0x3FFF#16) := by decide

/-- Section E, budget arithmetic. -/
theorem test_budget :
    Params.default.budgetNs = 1117460 ∧ { Params.default with batch := 2 }.budgetNs = 1117 ∧
    { Params.default with batch := 29830 }.budgetNs = 16666918 ∧ Params.default.imgSize = 16 := by decide

/-! ## Processor-space router (sections A and B) -/

theorem test_ram_write : (run 0x0110005A#32 State.reset).map (·.ram) = some [(0, 0x5A#8)] := by decide

theorem test_ram_write_keeps_others :
    (run 0x0107FE55#32 { State.reset with ram := [(0, 0xAB#8), (0x7FF, 0x02#8)] }).map (·.ram) =
      some [(0, 0xAB#8), (0x7FE, 0x55#8), (0x7FF, 0x02#8)] := by decide

theorem test_ram_read_mirror :
    outputs 0x00180000#32 { State.reset with ram := [(0, 0xAB#8)] } = some [.route .c .ram 0#16, .rd 0xAB#8] := by decide

theorem test_ppureg :
    outputs 0x003FFE00#32 State.reset =
      some [.route .c .ppureg 0x2006#16, .devRead .ppu 0x2006#16 0#2 none, .rd 0x99#8] ∧
    outputs 0x013FFE00#32 State.reset =
      some [.route .c .ppureg 0x2006#16, .devWrite .ppu 0x2006#16 0#2 0x00#8 none] := by decide

theorem test_apu :
    outputs 0x00401300#32 State.reset = some [.route .c .apu 0x4013#16, .devRead .apu 0x4013#16 0#2 none, .rd 0x99#8] ∧
    outputs 0x0140151F#32 State.reset = some [.route .c .apu 0x4015#16, .devWrite .apu 0x4015#16 0#2 0x1F#8 none] ∧
    outputs 0x01401740#32 State.reset = some [.route .c .apu 0x4017#16, .devWrite .apu 0x4017#16 0#2 0x40#8 none] ∧
    outputs 0x01401310#32 State.reset = some [.route .c .apu 0x4013#16, .devWrite .apu 0x4013#16 0#2 0x10#8 none] := by
  decide

theorem test_oamdma :
    outputs 0x01401402#32 State.reset = some [.route .c .ppureg 0x4014#16, .devWrite .ppu 0x4014#16 0#2 0x02#8 none] ∧
    outputs 0x00401400#32 State.reset =
      some [.route .c .ppureg 0x4014#16, .devRead .ppu 0x4014#16 0#2 none, .rd 0x99#8] := by decide

/-- Program 4, steps 4 and 9. -/
theorem test_controller :
    outputs 0x01401601#32 { State.reset with ctrl := 0x01 } =
      some [.route .c .ctrlDev 0x4016#16, .ctrlValue 0x01, .devWrite .ctrlDev 0x4016#16 0#2 0x01#8 (some 0x01)] ∧
    outputs 0x00401600#32 { State.reset with ctrl := 0x80 } =
      some [.route .c .ctrlDev 0x4016#16, .ctrlValue 0x80, .devRead .ctrlDev 0x4016#16 0#2 (some 0x80), .rd 0x99#8] := by
  decide

theorem test_unmapped :
    (outputs 0x005ABC00#32 State.reset).map returned = some [0x00#8] ∧
    (run 0x015FFF77#32 State.reset).map silent = (some (silent { State.reset with
      port := .word 0x015FFF77#32 { placedInputs with devRd := 0x99#8 } })) := by decide

theorem test_cartridge :
    outputs 0x00FFFC00#32 State.reset = some [.route .c .cart 0xFFFC#16, .devRead .cart 0xFFFC#16 0#2 none, .rd 0x99#8] ∧
    outputs 0x01FFFF80#32 State.reset = some [.route .c .cart 0xFFFF#16, .devWrite .cart 0xFFFF#16 0#2 0x80#8 none] ∧
    outputs 0x00600000#32 State.reset = some [.route .c .cart 0x6000#16, .devRead .cart 0x6000#16 0#2 none, .rd 0x99#8] :=
  by decide

/-- R242, U18. -/
theorem test_no_cartridge : run 0x00000000#32 (State.powerOn Params.default false) = none := by decide

/-- R16, R75: what a device does while its entry runs, before the byte is returned: a write of RAM, a request. -/
theorem test_device_activity :
    (nextOf (step (present 0x00200200#32
        { quietInputs with devRd := 0x80#8, acts := .op (.write .c 0x0801#16 0#2 0xCD#8) .done (.op (.srcSet 7#16) .done .done) } State.reset))).map
      (fun t => (t.ram, t.req, returned t.trace)) = some ([(1, 0xCD#8)], [7#16], [0x80#8]) := by decide

/-- R12, R16: what a device does while its entry runs comes before the byte its own access returns, at every depth: the
processor step reads `0x2007`, and the picture unit, before it answers, reads `0x0010` of the cartridge. -/
theorem test_nested_activity :
    (nextOf (exec .seqCpu { at_ .cpu with
      port := .tick { quietInputs with
        acts := .op (.read .c 0x2007#16 0#2 0x22#8) (.op (.read .p 0x0010#16 1#2 0x11#8) .done .done) .done } })).map
      (fun t => (t.trace, t.nCpu)) =
    some ([.runNext false,
      .route .c .ppureg 0x2007#16, .devRead .ppu 0x2007#16 0#2 none,
      .route .p .cart 0x0010#16, .devRead .cart 0x0010#16 1#2 none, .rd 0x11#8, .rd 0x22#8], 1) := by decide

/-- R277: inside `PPU.clock()` no access enters the picture unit. -/
theorem test_exclusive_clock :
    (nextOf (exec .seqPpu0 { at_ .ppu0 with
      port := .tick { quietInputs with acts := .op (.read .c 0x2002#16 1#2 0x80#8) .done (.op (.srcSet 7#16) .done .done) }
      })).map (fun t => (t.trace, t.req)) = some ([.ppuTick], [7#16]) := by decide

/-! ## Picture-unit-space router (section C) -/

theorem test_vram :
    outputs 0x12F00500#32 { State.reset with vram := [(0x005, 0x77#8)] } =
      some [.route .p .vram 0x2005#16, .rd 0x77#8] ∧
    (run 0x133EFF01#32 State.reset).map (·.vram) = some [(0xEFF, 0x01#8)] ∧
    (run 0x132FFF09#32 State.reset).map (·.vram) = some [(0xFFF, 0x09#8)] := by decide

theorem test_pal :
    outputs 0x12FF0100#32 { State.reset with pal := [(0x01, 0x21#8)] } = some [.route .p .pal 0x3F01#16, .rd 0x21#8] ∧
    (run 0x13FFFF30#32 State.reset).map (·.pal) = some [(0xFF, 0x30#8)] ∧
    (run 0x132F0044#32 { State.reset with pal := [(0x00, 0x0F#8)] }).map (fun t => (t.vram, t.pal)) =
      some ([(0xF00, 0x44#8)], [(0x00, 0x0F#8)]) := by decide

theorem test_pattern_table :
    outputs 0x125FFF00#32 State.reset = some [.route .p .cart 0x1FFF#16, .devRead .cart 0x1FFF#16 1#2 none, .rd 0x99#8] ∧
    outputs 0x13DFFF01#32 State.reset = some [.route .p .cart 0x1FFF#16, .devWrite .cart 0x1FFF#16 1#2 0x01#8 none] := by
  decide

/-- R8: a fold of the parameters sends two offsets to one cell. -/
theorem test_fold :
    (run 0x13240011#32 { State.reset with cfg := { Params.default with vramFold := [(0x400, 0x000)] } }).map (·.vram) =
      some [(0x000, 0x11#8)] := by decide

/-! ## Interrupt Aggregator (section D, the sequence from power-on) -/

theorem test_irq_poll :
    outputs 0x21000000#32 { State.reset with req := [5#16] } = some [.irqLine false] ∧
    outputs 0x21000000#32 { State.reset with src := [5#16], req := [5#16] } = some [.irqLine true] ∧
    outputs 0x21000000#32 { State.reset with src := [5#16, 7#16, 5#16], req := [9#16] } = some [.irqLine false] := by decide

theorem test_irq_register : (run 0x20000500#32 { State.reset with src := [5#16, 7#16] }).map (·.src) =
    some [5#16, 7#16, 5#16] := by decide

theorem test_source_set : (run 0x22000500#32 { State.reset with req := [7#16] }).map (·.req) = some [5#16, 7#16] := by
  decide

theorem test_source_clear :
    (run 0x23000700#32 { State.reset with req := [5#16, 7#16] }).map (·.req) = some [5#16] := by decide

/-! ## Clock Coordinator (section E) -/

/-- R186: what `CPU.reset()` issues, here a read of `0xFFFC`, comes before `APU.play()` is called. -/
theorem test_start :
    (nextOf (step (present 0x30000000#32
        { quietInputs with
          now := 1000#64, acts := .op (.read .c 0xFFFC#16 0#2 0x34#8) .done .done,
          playActs := .op (.srcSet 9#16) .done .done } State.reset))).map
      (fun t => ((t.cstate, t.slot, t.tPrev), t.audioPlay, t.req, t.trace)) =
      some ((.running, .top, 1000#64), true, [9#16],
        [.cpuReset, .route .c .cart 0xFFFC#16, .devRead .cart 0xFFFC#16 0#2 none, .rd 0x34#8, .apuPlay]) := by decide

theorem test_start_refused_states :
    (run 0x30000000#32 { at_ .ppu1 with batchCnt := 7 }).map (fun t => (t.cstate, t.slot, t.batchCnt, t.trace)) =
      some (.running, .ppu1, 7, []) ∧
    (run 0x30000000#32 (State.powerOn Params.default false)).map (fun t => (t.cstate, t.audioPlay)) =
      some (.idle, false) := by decide

theorem test_top :
    (turn 0 0 (at_ .top)).map (fun t => (t.cstate, t.slot)) = some (.running, .cpu) ∧
    (turn 0 0 { at_ .top with shutdownLatch := true }).map (fun t => (t.cstate, t.slot)) = some (.stopping, .top) := by
  decide

theorem test_cpu :
    (turn 0 0 { at_ .cpu with src := [7#16], req := [7#16] }).map (fun t => (t.nCpu, t.slot, t.trace)) =
      some (1, .apu, [.runNext true]) := by decide

theorem test_apu_tick :
    (turn 0 0 (at_ .apu)).map (fun t => (t.nApu, t.apuPhase, t.slot, t.trace)) = some (0, true, .ppu0, []) ∧
    (turn 0 0 { at_ .apu with apuPhase := true }).map (fun t => (t.nApu, t.apuPhase, t.slot, t.trace)) =
      some (1, false, .ppu0, [.apuTick]) := by decide

theorem test_ppu_ticks :
    (turn 0 0 (at_ .ppu0)).map (fun t => (t.nPpu, t.slot, t.trace)) = some (1, .ppu1, [.ppuTick]) ∧
    (turn 0 0 (at_ .ppu1)).map (fun t => (t.nPpu, t.slot)) = some (1, .ppu2) ∧
    (turn 0 0 (at_ .ppu2)).map (fun t => (t.nPpu, t.batchCnt, t.slot)) = some (1, 1, .cpu) ∧
    (turn 0 0 { at_ .ppu2 with batchCnt := 1999 }).map (fun t => (t.batchCnt, t.slot)) = some (2000, .pace) := by decide

/-- Section E, the pacing table, `t_prev == 1 000 000`. -/
theorem test_pace :
    (turn 1500000 2117460 { at_ .pace with batchCnt := 2000, tPrev := 1000000#64 }).map
      (fun t => (t.tPrev, t.batchCnt, t.slot, t.trace)) = some (2117460#64, 0, .top, [.sleep 617460]) ∧
    (turn 2117459 2117460 { at_ .pace with tPrev := 1000000#64 }).map (·.trace) = some [.sleep 1] := by decide

theorem test_pace_overrun :
    (turn 2117460 2117460 { at_ .pace with tPrev := 1000000#64 }).map (·.trace) =
      some [.sleep 0, .event (.overrun 0)] ∧
    (turn 3000000 3000000 { at_ .pace with tPrev := 1000000#64 }).map (fun t => (t.tPrev, t.trace)) =
      some (3000000#64, [.sleep 0, .event (.overrun 882540)]) := by decide

theorem test_stop :
    (turn 0 0 { State.reset with cstate := .stopping, audioPlay := true }).map (fun t => (t.cstate, t.audioPlay)) =
      some (.stopped, false) ∧
    (turn 0 0 { State.reset with cstate := .stopped }).map (fun t => (t.cstate, t.trace)) = some (.stopped, []) ∧
    (turn 0 0 State.reset).map (fun t => (t.cstate, t.trace)) = some (.idle, []) := by decide

theorem test_shutdown :
    (run 0x32000000#32 (at_ .ppu1)).map (fun t => (t.shutdownLatch, t.cstate, t.slot)) = some (true, .running, .ppu1) := by
  decide

/-- `CLK.TICK` on the ports performs the same micro-operation; at `S == 01111` it is refused (R198). -/
theorem test_tick :
    (run 0x31000000#32 (at_ .cpu)).map (fun t => (t.nCpu, t.slot)) = some (1, .apu) ∧
    outputs 0x31000000#32 (at_ .unused7) = some [.event (.opRefused 0x31000000#32)] := by decide

/-! ## Shared frame state (section F) -/

theorem test_image_write :
    (nextOf (step (present 0x40000000#32 { quietInputs with imgOff := 4, imgBytes := [0xAA#8, 0xBB#8] } State.reset))).map
      (·.img) = some [(4, 0xAA#8), (5, 0xBB#8)] := by decide

theorem test_image_write_out_of_range :
    (nextOf (step (present 0x40000000#32 { quietInputs with imgOff := 15, imgBytes := [0x01#8, 0x02#8] } State.reset))).map
      (fun t => (t.img, t.trace)) = some ([], [.event (.opRefused 0x40000000#32)]) := by decide

theorem test_image_read :
    outputs 0x45000000#32 { State.reset with
        cfg := { Params.default with frameW := 2, frameH := 1 }, img := [(0, 0x11#8), (1, 0x22#8)] } =
      some [.image [0x11#8, 0x22#8]] := by decide

theorem test_controller_write :
    (nextOf (step (present 0x46000000#32 { quietInputs with ctrlVal := 0x81 } State.reset))).map (·.ctrl) = some 0x81 := by
  decide

theorem test_controller_read : outputs 0x43000000#32 { State.reset with ctrl := 0x10 } = some [.ctrlValue 0x10] := by decide

/-- Section G, program 4 step 12: nothing changes but the event, which carries the word. -/
theorem test_reserved_word :
    (run 0x44000000#32 State.reset).map (fun t => (t.img, t.ctrl, t.trace)) =
      some ([], 0, [.event (.opRefused 0x44000000#32)]) := by decide

/-- R226: an operation whose lock is held waits, still presented. -/
theorem test_lock_wait :
    (run 0x43000000#32 { State.reset with ctrlLock := .pres }).map (fun t => (t.inbox.length, t.trace)) =
      some (1, []) := by decide

/-! ## How the host places an operation -/

theorem test_placed_words :
    decodeTableWord 32 0x01401402 = some (.cOamdmaWr 0#2 0x02#8) ∧ decodeTableWord 8 0b01110 = some .seqPace ∧
    decodeTableWord 32 0x44000000 = none ∧ decodeTableWord 8 0b01111 = none := by decide

theorem test_placed_runs :
    (nextOf (step (State.reset.withFetchWord 32 0x010000AB))).map (·.ram) = some [(0, 0xAB#8)] ∧
    (nextOf (step (State.reset.withFetchWord 8 0b01001))).map (fun t => (t.nCpu, t.slot)) = some (1, .apu) := by decide

/-! ## Witnesses: states and operands that meet the hypotheses of the obligations -/

/-- Five quiet turns of the emulation agent presented, at the start of an iteration. -/
def fiveTurns : State :=
  { at_ .cpu with inbox := List.replicate 5 (.tick quietInputs) }

/-- The invariant holds at a state of the main loop. -/
theorem witness_inv_running : Inv (at_ .cpu) := by
  constructor <;> simp [at_, State.reset, State.powerOn, Params.default, Params.valid, LocksFree, ticksDue, stepsHeard]

/-- For `TickRatio` and `StepKeepsInvariant`, with their own witnesses below. -/
theorem witness_inv_fiveTurns : Inv fiveTurns := by
  constructor <;>
    simp [fiveTurns, at_, State.reset, State.powerOn, Params.default, Params.valid, LocksFree, ticksDue, stepsHeard]

/-- For `ShutdownLatency`, with its own witness below. -/
theorem witness_inv_shutdown : Inv { at_ .top with shutdownLatch := true } := by
  constructor <;> simp [at_, State.reset, State.powerOn, Params.default, Params.valid, LocksFree, ticksDue, stepsHeard]

/-- For every statement that asks for a cartridge, free locks or a quiet device: `RamRead`, `RamWrite`,
`PictureRegisterAccess`, `AudioRegisterAccess`, `BulkTransferRegister`, `ControllerAccess`, `UnmappedAccess`,
`CartridgeAccess`, `PatternTableAccess`, `VideoRead`, `VideoWrite`, `BusCompletes`, `OneOwnerTouched`, `ClockStart`,
`ImageRead`, `ControllerRead`, `OneMutationAtATime`. -/
theorem witness_locksFree : LocksFree State.reset ∧ State.reset.cartOk = true ∧ State.reset.port.inputs.acts = .done ∧
    State.reset.port.inputs.playActs = .done :=
  ⟨⟨rfl, rfl⟩, rfl, rfl, rfl⟩

/-- For `TickPerformsPosition`, `SeqCpu`, `SeqApu`, `SeqPpuFirst`, `SeqPpuLast`, `Iteration`. -/
theorem witness_locksFree_running (slot : Slot) : LocksFree (at_ slot) := ⟨rfl, rfl⟩

theorem witness_DecodeEncode : wellFormed (.cRamRd 3#2 0x1FFF#16) = true ∧ wellFormed (.pPalWr 3#2 0xFFFF#16 0xFF#8) = true ∧
    wellFormed .seqHalt = true := by decide

theorem witness_DecodeFollowsTable :
    decode (.w 0x0607FFEE#32) = .ok (.cRamRd 3#2 0x07FF#16) ∧ decode (.s 0b11101#5) = .ok .seqHalt := by decide

theorem witness_RowsPartition :
    (tableRow (.cApuRd4010 0#2 0x4010#16)).selects (.w 0x00401301#32) = true ∧
    (tableRow (.cApuRd4010 2#2 0x4013#16)).selects (.w 0x00401301#32) = true ∧
    (unitOf 0x17FFFFFF#32).toNat ≤ 1 ∧ (fnOf 0x17FFFFFF#32).getLsbD 3 = false := by decide

theorem witness_ReservedWordsRefused :
    (present 0x24FFFFFF#32 quietInputs State.reset).inbox = [.word 0x24FFFFFF#32 quietInputs] ∧
    reservedWord 0x24FFFFFF#32 = true ∧ reservedWord 0x5FFFFFFF#32 = true ∧ reservedWord 0x08000000#32 = true ∧
    reservedWord 0x33000000#32 = true ∧ reservedWord 0x44000000#32 = true ∧
    reservedWord 0x23FFFFFF#32 = false ∧ reservedWord 0x17FFFFFF#32 = false ∧ reservedWord 0x32FFFFFF#32 = false ∧
    reservedWord 0x46FFFFFF#32 = false := by decide

theorem witness_StepRunsOperation :
    ((present 0x21000000#32 quietInputs State.reset).inbox = [.word 0x21000000#32 quietInputs] ∧
      decodeW 0x21000000#32 = .ok .irqPoll) ∧
    (fiveTurns.inbox = .tick quietInputs :: List.replicate 4 (.tick quietInputs) ∧
      decodeS (positionWord fiveTurns) = .ok .seqCpu) ∧
    ((at_ .pace).inbox = [] ∧ decodeS (positionWord (at_ .pace)) = .ok .seqPace) := by decide

theorem witness_TickPerformsPosition :
    decodeS (positionWord (at_ .apu)) = .ok .seqApu ∧ State.reset.cstate = .idle ∧ (at_ .top).cstate = .running ∧
    (at_ .top).slot = .top ∧ (at_ .cpu).slot = .cpu ∧ (at_ .apu).slot = .apu ∧ (at_ .ppu0).slot = .ppu0 ∧
    (at_ .ppu1).slot = .ppu1 ∧ (at_ .ppu2).slot = .ppu2 ∧ (at_ .pace).slot = .pace ∧
    (at_ .unused7).slot = .unused7 ∧ { at_ .top with cstate := .stopping }.cstate = .stopping ∧
    { at_ .top with cstate := .stopped }.cstate = .stopped := by decide

/-- Both ends of every range; `test_map_processor` has what they resolve to. -/
theorem witness_ProcessorMap :
    (0x1FFF#16).toNat ≤ 0x1FFF ∧ (0x2000 ≤ (0x2000#16).toNat ∧ (0x3FFF#16).toNat ≤ 0x3FFF) ∧
    (0x4000 ≤ (0x4000#16).toNat ∧ (0x4013#16).toNat ≤ 0x4013) ∧ (0x4014#16).toNat = 0x4014 ∧
    (0x4015#16).toNat = 0x4015 ∧ (0x4016#16).toNat = 0x4016 ∧ (0x4017#16).toNat = 0x4017 ∧
    (0x4018 ≤ (0x4018#16).toNat ∧ (0x5FFF#16).toNat ≤ 0x5FFF) ∧ 0x6000 ≤ (0x6000#16).toNat := by decide

theorem witness_PictureMap :
    (0x1FFF#16).toNat ≤ 0x1FFF ∧ (0x2000 ≤ (0x2000#16).toNat ∧ (0x3EFF#16).toNat ≤ 0x3EFF) ∧
    (0x3F00 ≤ (0x3F00#16).toNat ∧ (0x3FFF#16).toNat ≤ 0x3FFF) ∧ 0x4000 ≤ (0x4000#16).toNat := by decide

theorem witness_RamMirrors :
    ((0x07FF#16).toNat ≤ 0x1FFF ∧ (0x1FFF#16).toNat ≤ 0x1FFF ∧ 0x07FF#16 &&& 0x07FF#16 = 0x1FFF#16 &&& 0x07FF#16) ∧
    ((0x07FF#16).toNat < 0x0800 ∧ 3 ≤ 3 ∧ 0x07FF#16 + BitVec.ofNat 16 (0x0800 * 3) = 0x1FFF#16) := by decide

theorem witness_RegisterWindows :
    0x2000 ≤ (0x2000#16).toNat ∧ (0x3FFF#16).toNat ≤ 0x3FFF ∧ (routeC 0x3FFF#16).2.toNat = 0x2007 := by decide

theorem witness_FoldIdempotent : (routeP 0xFEFF#16).1 = .vram ∧ (routeP 0x2000#16).1 = .vram := by decide

theorem witness_PictureFold :
    0x4000 ≤ (0x4000#16).toNat ∧ 0x4000 ≤ (0xFFFF#16).toNat ∧ routeP 0xFFFF#16 = (.pal, 0x3FFF#16) ∧
    (tableRow (.pCartRd 0#2 0#16)).selects (.w (busWord 1#4 2#2 false 0xDFFF#16 7#8)) = true := by decide

/-- For `DecodedFormsAreGeneric`, `OneOwnerTouched`, `BusCompletes`, with `witness_locksFree`. -/
theorem witness_bus_words :
    (unitOf 0x07FFFFFF#32 = 0#4 ∧ decodeW 0x07FFFFFF#32 = .ok (.cCartWr8000 3#2 0xFFFF#16 0xFF#8)) ∧
    (unitOf 0x16FFFFFF#32 = 1#4 ∧ decodeW 0x16FFFFFF#32 = .ok (.pPalRd 3#2 0xFFFF#16)) ∧
    (unitOf 0x00401600#32 = 0#4 ∧ decodeW 0x00401600#32 = .ok (.cCtrlRd 0#2)) ∧
    (unitOf 0x01500000#32 = 0#4 ∧ decodeW 0x01500000#32 = .ok (.cNoneWr5000 0#2 0x5000#16 0#8)) := by decide

/-- With `witness_locksFree` and `witness_SeqApu`: words of each unit's window, at its first and last address. -/
theorem witness_OneMutationAtATime :
    (unitOf 0x00200000#32 = 0#4 ∧ decodeW 0x00200000#32 = .ok (.cPpuregRd 0#2 0x2000#16) ∧
      exclusiveUnit (route .c (arg16Of 0x00200000#32)).1 = some .ppu) ∧
    (unitOf 0x013FFF00#32 = 0#4 ∧ decodeW 0x013FFF00#32 = .ok (.cPpuregWr 0#2 0x3FFF#16 0#8) ∧
      exclusiveUnit (route .c (arg16Of 0x013FFF00#32)).1 = some .ppu) ∧
    (unitOf 0x00400000#32 = 0#4 ∧ decodeW 0x00400000#32 = .ok (.cApuRd4000 0#2 0x4000#16) ∧
      exclusiveUnit (route .c (arg16Of 0x00400000#32)).1 = some .apu) ∧
    (unitOf 0x01401700#32 = 0#4 ∧ decodeW 0x01401700#32 = .ok (.cApuWr4017 0#2 0#8) ∧
      exclusiveUnit (route .c (arg16Of 0x01401700#32)).1 = some .apu) := by decide

theorem witness_NoCartridgeRefused :
    (State.powerOn Params.default false).cartOk = false ∧ decodeW 0x00000000#32 = .ok (.cRamRd 0#2 0#16) := by decide

/-- Mirrors the routers fold (R62, R63), one for each store. -/
theorem witness_WriteThenRead :
    (route .c 0x1FFF#16 = (.ram, 0x07FF#16) ∧ route .c 0x07FF#16 = (.ram, 0x07FF#16)) ∧
    (route .p 0xFEFF#16 = (.vram, 0x2EFF#16) ∧ route .p 0x2EFF#16 = (.vram, 0x2EFF#16)) ∧
    (route .p 0xFF01#16 = (.pal, 0x3F01#16) ∧ route .p 0x3F01#16 = (.pal, 0x3F01#16)) := by decide

/-- Folds that send two resolved addresses to one cell: cell `0x400` of `VRAM` to `0x000`, `0x10` of `PAL` to `0x00`. -/
theorem witness_WriteThenRead_folded :
    let cfg := { Params.default with vramFold := [(0x400, 0)], palFold := [(0x10, 0)] }
    (route .p 0x2000#16 ≠ route .p 0x2400#16 ∧ ownerCell cfg (route .p 0x2000#16) = some (.vram, 0) ∧
      ownerCell cfg (route .p 0x2400#16) = some (.vram, 0)) ∧
    (route .p 0x3F00#16 ≠ route .p 0xFF10#16 ∧ ownerCell cfg (route .p 0x3F00#16) = some (.pal, 0) ∧
      ownerCell cfg (route .p 0xFF10#16) = some (.pal, 0)) := by decide

theorem witness_WriteThenRead_written :
    (memWrite .c some 0x1FFF#16 0#2 0x01#8 State.reset).map (·.ram) = some [(0x7FF, 0x01#8)] := by decide

theorem witness_UnmappedAccess :
    Instr.cNoneRd5000 0#2 0x5FFF#16 ∈ [Instr.cNoneRd4018 0#2 0x5FFF#16, .cNoneRd5000 0#2 0x5FFF#16] ∧
    Instr.cNoneWr4018 0#2 0x4018#16 1#8 ∈ [Instr.cNoneWr4018 0#2 0x4018#16 1#8] := by decide

theorem witness_VideoAccess :
    Instr.pVramRd3E00 1#2 0x3EFF#16 ∈ [Instr.pVramRd2000 1#2 0x3EFF#16, .pVramRd3E00 1#2 0x3EFF#16] ∧
    Instr.pVramWr2000 1#2 0x2000#16 1#8 ∈ [Instr.pVramWr2000 1#2 0x2000#16 1#8] := by decide

theorem witness_AggregateLine :
    State.reset.src = [] ∧ 5#16 ∈ { State.reset with src := [5#16] }.src ∧
    requesting { State.reset with req := [5#16] } 5#16 = true := by decide

theorem witness_OrderIndependence :
    [1#16, 2#16].Perm [2#16, 1#16] ∧ 7#16 ∈ { State.reset with src := [7#16] }.src := by decide

theorem witness_ClockStart :
    (State.reset.cstate = .idle ∧ State.reset.cartOk = true) ∧ (at_ .ppu1).cstate ≠ .idle ∧
    (State.powerOn Params.default false).cartOk = false := by decide

theorem witness_SeqTop :
    { at_ .top with shutdownLatch := true }.shutdownLatch = true ∧ (at_ .top).shutdownLatch = false := by decide

theorem witness_SeqApu : { at_ .apu with apuPhase := true }.apuPhase = true ∧ (at_ .apu).apuPhase = false := by decide

/-- Times a nanosecond to either side of the budget. -/
theorem witness_SeqPace :
    (1000#64).toNat ≤ (1118459#64).toNat ∧ (1118459#64).toNat ≤ (1118460#64).toNat ∧
    1118459 - 1000 < State.reset.cfg.budgetNs ∧ State.reset.cfg.budgetNs ≤ 1118460 - 1000 := by decide

theorem witness_CoordinatorTransitions :
    (run 0x30000000#32 State.reset).map (·.cstate) = some .running ∧
    (run 0x31000000#32 { at_ .top with shutdownLatch := true }).map (·.cstate) = some .stopping ∧
    (turn 0 0 { at_ .top with cstate := .stopping }).map (·.cstate) = some .stopped := by decide

theorem witness_Iteration :
    (at_ .cpu).inbox = [] ∧ (at_ .cpu).cstate = .running ∧ (at_ .cpu).slot = .cpu ∧ LocksFree (at_ .cpu) :=
  ⟨rfl, rfl, rfl, rfl, rfl⟩

theorem witness_ShutdownLatency :
    { at_ .top with shutdownLatch := true }.inbox = [] ∧ { at_ .top with shutdownLatch := true }.cstate = .running ∧
    { at_ .top with shutdownLatch := true }.shutdownLatch = true := by decide

theorem witness_TickRatio :
    AtBoundary fiveTurns ∧
    ∃ t, core.run 5 fiveTurns = .next t ∧ t.slot = .cpu ∧ t.nCpu = fiveTurns.nCpu + 1 ∧ t.nPpu = 3 :=
  ⟨.inr (.inl rfl), _, rfl, rfl, rfl, rfl⟩

/-- For `ParametersConstant` too. -/
theorem witness_StepKeepsInvariant : ∃ t, step fiveTurns = .next t ∧ t.slot = .apu := ⟨_, rfl, rfl⟩

theorem witness_ResetInvariant : Params.default.valid = true ∧ { Params.default with batch := 1 }.valid = true := by decide

theorem witness_StickyState :
    { at_ .top with shutdownLatch := true, src := [1#16] }.shutdownLatch = true ∧
    ∃ t, step (present 0x20000700#32 quietInputs { at_ .top with shutdownLatch := true, src := [1#16] }) = .next t ∧
      t.src = [1#16, 7#16] := ⟨rfl, _, rfl, rfl⟩

/-- The last byte of the image, and one byte beyond it. -/
theorem witness_ImageWrite :
    State.reset.imgLock = .free ∧ [0xFF#8] ≠ [] ∧ 15 + [0xFF#8].length ≤ State.reset.cfg.imgSize ∧
    State.reset.cfg.imgSize < 16 + [0x01#8].length := by decide

theorem witness_ControllerWrite : State.reset.ctrlLock = .free ∧ 255 < 2 ^ State.reset.cfg.ctrlW := by decide

theorem witness_LockWait :
    { State.reset with imgLock := .pres }.imgLock ≠ .free ∧ { State.reset with ctrlLock := .pres }.ctrlLock ≠ .free ∧
    ({ State.reset with port := .word 0x40000000#32 placedInputs }).port.inputs.imgBytes ≠ [] ∧
    placedInputs.imgOff + placedInputs.imgBytes.length ≤ State.reset.cfg.imgSize := by decide

end Sys2Proof.Tests
end

section
/-! PROOFS. What a step runs (R17, R98, R187) and what no step changes (R9, R32, R43). -/

namespace Sys2Proof.Machine

/-! ## Which operation a step runs -/

theorem latch_of_presented {s : State} {r : Request} {rest : List Request} (h : s.inbox = r :: rest) :
    latch s = { s with port := r, inbox := rest } := by
  rw [latch, h]

theorem latch_of_nothing_presented {s : State} (h : s.inbox = []) :
    latch s = { s with port := .tick (Config.freeInputs s.draws), draws := s.draws + 1 } := by
  rw [latch, h]

theorem fetch_of_word {s : State} {w : OpWord} {inp : Inputs} {rest : List Request}
    (h : s.inbox = .word w inp :: rest) : fetch s = decodeW w := by
  rw [fetch, latch_of_presented h]
  rfl

theorem fetch_of_tick {s : State} {inp : Inputs} {rest : List Request} (h : s.inbox = .tick inp :: rest) :
    fetch s = decodeS (positionWord s) := by
  rw [fetch, latch_of_presented h]
  rfl

theorem fetch_of_nothing_presented {s : State} (h : s.inbox = []) : fetch s = decodeS (positionWord s) := by
  rw [fetch, latch_of_nothing_presented h]
  rfl

/-- Settles O6: in each of the three presentations, what is fetched and the state it is latched in. -/
theorem stepRunsOperation : Obligations.StepRunsOperation := by
  refine ⟨fun s w inp rest i hs hi => ?_, fun s inp rest i hs hi => ?_, fun s i hs hi => ?_⟩
  · rw [step_ok ((fetch_of_word hs).trans hi), latch_of_presented hs]
  · rw [step_ok ((fetch_of_tick hs).trans hi), latch_of_presented hs]
  · rw [step_ok ((fetch_of_nothing_presented hs).trans hi), latch_of_nothing_presented hs]

/-! ## What no step changes -/

/-- When the sequencer moves, it writes its own registers and counters and nothing else over what the collaborator
called in between leaves (R186 to R196). -/
theorem Advance.frame {i : Instr} {s t : State} (h : Advance i s t) :
    ∃ m, Leaves s m ∧
      { t with cstate := m.cstate, slot := m.slot, batchCnt := m.batchCnt, apuPhase := m.apuPhase,
               audioPlay := m.audioPlay, tPrev := m.tPrev, nCpu := m.nCpu, nPpu := m.nPpu, nApu := m.nApu } = m := by
  cases h with
  | start _ _ hm => exact ⟨_, hm, rfl⟩
  | stop => exact ⟨_, Leaves.refl s, rfl⟩
  | go => exact ⟨_, Leaves.refl s, rfl⟩
  | cpu _ _ hm => exact ⟨_, hm, rfl⟩
  | apu _ _ _ hm => exact ⟨_, hm, rfl⟩
  | skip => exact ⟨_, Leaves.refl s, rfl⟩
  | ppu0 _ _ hm => exact ⟨_, hm, rfl⟩
  | ppu1 _ _ hm => exact ⟨_, hm, rfl⟩
  | ppu2 _ _ hm => exact ⟨_, hm, rfl⟩
  | pace _ _ _ hm => exact ⟨_, hm, rfl⟩
  | drain => exact ⟨_, Leaves.refl s, rfl⟩

theorem Leaves.cartOk {s t : State} (h : Leaves s t) : t.cartOk = s.cartOk := by
  have h1 := congrArg State.cartOk h.control
  exact h1

theorem Advance.cfg {i : Instr} {s t : State} (h : Advance i s t) : t.cfg = s.cfg := by
  obtain ⟨m, hm, hf⟩ := h.frame
  exact (congrArg State.cfg hf).trans hm.cfg

theorem Advance.cartOk {i : Instr} {s t : State} (h : Advance i s t) : t.cartOk = s.cartOk := by
  obtain ⟨m, hm, hf⟩ := h.frame
  exact (congrArg State.cartOk hf).trans hm.cartOk

/-- The outputs of an advance are those of the collaborator called in between. -/
theorem Advance.trace {i : Instr} {s t : State} (h : Advance i s t) : s.trace <+: t.trace := by
  obtain ⟨m, hm, hf⟩ := h.frame
  have h1 : m.trace = t.trace := (congrArg State.trace hf).symm
  exact h1 ▸ hm.trace

/-- Settles O53: a step waits, or leaves what `control` holds, or advances the sequencer, and none of the three touches
a parameter or `cart_ok` or drops an output. -/
theorem parametersConstant : Obligations.ParametersConstant := by
  intro s t h
  rw [← latch_cfg s, ← latch_cartOk s, ← latch_trace s]
  obtain rfl | hl | ⟨i, -, ha⟩ := step_next h
  · exact ⟨wait_cfg _, wait_cartOk _, List.prefix_refl _⟩
  · exact ⟨hl.cfg, hl.cartOk, hl.trace⟩
  · exact ⟨ha.cfg, ha.cartOk, ha.trace⟩

end Sys2Proof.Machine
end

section
/-! PROOFS. The state of the BCC: what power-on leaves (R50), the invariant of R51 and the sticky fields over every
step, a read after a write (R22, R23), and the monotone clock of the pacing check (R31). -/

namespace Sys2Proof.Machine

/-! ## The invariant, in parts -/

/-- The part of the invariant the sequencer works on: R51 (a) to (e), R27. -/
structure SeqOk (s : State) : Prop where
  outside : s.cstate ≠ .running → s.slot = .top
  slotUsed : s.slot ≠ .unused7
  batch : s.batchCnt ≤ s.cfg.batch ∧ (s.batchCnt = s.cfg.batch ↔ s.slot = .pace)
  pictureTicks : s.nPpu + ticksDue s.slot = 3 * s.nCpu
  audioTicks : s.nApu = stepsHeard s / 2
  audioPhase : s.apuPhase = (stepsHeard s % 2 == 1)
  audioOn : s.audioPlay = true ↔ s.cstate = .running ∨ s.cstate = .stopping

theorem Inv.dataOk {s : State} (h : Inv s) : DataOk s :=
  ⟨h.stores, h.ramCells, h.vramCells, h.palCells, h.imgCells, h.ctrlBits, h.sources⟩

theorem Inv.seqOk {s : State} (h : Inv s) : SeqOk s :=
  ⟨h.outside, h.slotUsed, h.batch, h.pictureTicks, h.audioTicks, h.audioPhase, h.audioOn⟩

theorem Inv.of_parts {s : State} (hp : s.cfg.valid = true) (hd : DataOk s) (hl : LocksFree s) (hq : SeqOk s) : Inv s :=
  { hd, hq with params := hp, locks := hl }

theorem batch_pos_of_valid {p : Params} (h : p.valid = true) : 1 ≤ p.batch := by
  simp only [Params.valid, Bool.and_eq_true, decide_eq_true_eq] at h
  omega

/-! ## The invariant over a step -/

/-- `SeqOk` reads only what `control` holds. -/
theorem SeqOk.of_control {s t : State} (hs : SeqOk s) (h : control t = control s) : SeqOk t := by
  have hc : SeqOk (control s) := { hs with }
  rw [← h] at hc
  exact { hc with }

/-- Latching and waiting move the presentation alone. -/
theorem Inv.of_presentation {s t : State} (hs : Inv s)
    (h : { t with port := s.port, inbox := s.inbox, draws := s.draws } = s) : Inv t := by
  rw [← h] at hs
  exact { hs with }

theorem Leaves.inv {s t : State} (h : Leaves s t) (hs : Inv s) : Inv t :=
  .of_parts (h.cfg ▸ hs.params) (h.data hs.dataOk) (h.locks hs.locks) (hs.seqOk.of_control h.control)

/-- An advance writes no store, `CTRL` or `req` itself. -/
theorem Advance.dataOk {i : Instr} {s t : State} (h : Advance i s t) (hs : DataOk s) : DataOk t := by
  obtain ⟨m, hm, hf⟩ := h.frame
  have hd := hm.data hs
  rw [← hf] at hd
  exact { hd with }

theorem Advance.locks {i : Instr} {s t : State} (h : Advance i s t) (hs : LocksFree s) : LocksFree t := by
  obtain ⟨m, hm, hf⟩ := h.frame
  have hl := hm.locks hs
  rw [← hf] at hl
  exact hl

/-- Every move of the sequencer keeps the counts of R51. A processor step owes three picture ticks and each
picture tick pays one; the audio slot hears the step, with or without a tick, by the parity `apu_phase` holds; the third
picture tick ends the iteration, the last of the batch exactly when the count reaches `BATCH`. -/
theorem Advance.seqOk {i : Instr} {s t : State} (h : Advance i s t) (hb : 1 ≤ s.cfg.batch) (hs : SeqOk s) :
    SeqOk t := by
  obtain ⟨hout, -, ⟨hle, hend⟩, hppu, hapu, hphase, hon⟩ := hs
  cases h with
  | start hc _ hm =>
    have hm := control_fields hm.control
    have hl : s.slot = .top := hout (by simp [hc])
    constructor <;> simp_all [ticksDue, stepsHeard]
    case batch => omega
  | stop _ hc hl _ => constructor <;> simp_all [ticksDue, stepsHeard]
  | go hc hl => constructor <;> simp_all [ticksDue, stepsHeard]
  | cpu hc hl hm =>
    have hm := control_fields hm.control
    constructor <;> simp_all [ticksDue, stepsHeard]
    case pictureTicks => omega
  | apu hc hl hp hm =>
    have hm := control_fields hm.control
    constructor <;> simp_all [ticksDue, stepsHeard]
    case audioTicks => omega
    case audioPhase => omega
  | skip hc hl hp =>
    constructor <;> simp_all [ticksDue, stepsHeard]
    case audioTicks => omega
    case audioPhase => omega
  | ppu0 hc hl hm =>
    have hm := control_fields hm.control
    constructor <;> simp_all [ticksDue, stepsHeard]
  | ppu1 hc hl hm =>
    have hm := control_fields hm.control
    constructor <;> simp_all [ticksDue, stepsHeard]
  | ppu2 hc hl hm =>
    have hm := control_fields hm.control
    split
    · constructor <;> simp_all [ticksDue, stepsHeard]
    · constructor <;> simp_all [ticksDue, stepsHeard]
      case batch => omega
  | pace w hc hl hm =>
    have hm := control_fields hm.control
    constructor <;> simp_all [ticksDue, stepsHeard]
    case batch => omega
  | drain _ hc => constructor <;> simp_all [ticksDue, stepsHeard]

/-- Settles O50: a step waits, or leaves what `control` holds, or advances the sequencer, and each keeps the data, the
locks and the counts. -/
theorem stepKeepsInvariant : Obligations.StepKeepsInvariant := by
  intro s t hs h
  have hl : Inv (latch s) := hs.of_presentation (latch_frame s)
  obtain rfl | h | ⟨i, -, h⟩ := step_next h
  · exact hl.of_presentation rfl
  · exact h.inv hl
  · exact .of_parts (h.cfg ▸ hl.params) (h.dataOk hl.dataOk) (h.locks hl.locks)
      (h.seqOk (batch_pos_of_valid hl.params) hl.seqOk)

/-- Settles O51: at power-on nothing is written, counted, requested or held. -/
theorem resetInvariant : Obligations.ResetInvariant := by
  have h : ∀ (p : Params) (ok : Bool), p.valid = true → Inv (State.powerOn p ok) := fun p ok hp => by
    have hb := batch_pos_of_valid hp
    constructor <;> simp [State.powerOn, LocksFree, ticksDue, stepsHeard, hp]
    case batch => omega
  exact ⟨h, h _ _ (by decide)⟩

/-- Settles O54: nothing was written, so every cell reads as its draw. -/
theorem resetValues : Obligations.ResetValues := by
  intro p ok
  refine ⟨rfl, rfl, rfl, rfl, rfl, rfl, rfl, rfl, rfl, rfl, rfl, rfl, rfl, rfl, fun st i => ?_, rfl, rfl⟩
  cases st <;> rfl

/-! ## The sticky fields -/

/-- Settles O52: no one of the three things a step can do clears the latch or drops a source; an advance writes
neither. -/
theorem stickyState : Obligations.StickyState := by
  intro s t h
  rw [← latch_shutdownLatch s, ← latch_src s]
  obtain rfl | h | ⟨i, -, h⟩ := step_next h
  · exact ⟨id, List.prefix_refl _⟩
  · exact ⟨h.latch, h.src⟩
  · obtain ⟨m, hm, hf⟩ := h.frame
    have hsrc := hm.src
    have hlatch := hm.latch
    rw [← hf] at hsrc hlatch
    exact ⟨hlatch, hsrc⟩

/-! ## A read after a write -/

theorem readCell_routed (st : Store) (j : Nat) (sp : Space) (o : Owner) (ra : Addr) (s : State) :
    readCell st j (routed sp o ra s) = readCell st j s := by
  simp [readCell, routed]

/-- Settles O21: both addresses name one cell, which the write replaces and the read reads. -/
theorem writeThenRead : Obligations.WriteThenRead := by
  intro sp run run' a b org org' v ans s t ha hab hw
  obtain ⟨⟨st, j⟩, hj⟩ := Option.isSome_iff_exists.mp (ownerCell_isSome.mpr ha)
  have ht : writeCell st j v (routed sp (route sp a).1 (route sp a).2 s) = t :=
    Option.some.inj ((writeOwner_cell hj sp run org v).symm.trans hw)
  have hcfg : t.cfg = s.cfg := by simp [← ht, routed]
  have hval : readCell st j t = v := by simp [← ht]
  have hr := readOwner_cell (r := route sp b) (s := t) (hcfg ▸ hab.trans hj) sp run' org' ans
  rw [memRead, hr, readStore, readCell_routed, hval]
  simp [routed, emit]

/-! ## The clock of the pacing check -/

theorem le_notBefore (floor t : Time) : floor.toNat ≤ (notBefore floor t).toNat := by
  unfold notBefore
  split
  · exact le_rfl
  · rename_i h
    exact BitVec.le_def.mp (BitVec.not_lt.mp h)

theorem tPrev_le_paceWake (s : State) : s.tPrev.toNat ≤ (paceWake s).toNat :=
  (le_notBefore _ _).trans (le_notBefore _ _)

/-- The pacing check writes the outputs alone, a sleep within the budget first (R194). -/
theorem pacing_sleep (s : State) :
    ∃ ns rest, pacing s = { s with trace := s.trace ++ .sleep ns :: rest } ∧ ns ≤ s.cfg.budgetNs := by
  unfold pacing
  split
  · exact ⟨_, [], rfl, Nat.sub_le _ _⟩
  · exact ⟨0, [.event (.overrun (elapsed s - s.cfg.budgetNs))], by simp [raiseEvent, emit], Nat.zero_le _⟩

/-- Settles O44: a time that goes back is raised to the last one, and the sleep is the budget less what elapsed. -/
theorem seqPaceAnyClock : Obligations.SeqPaceAnyClock := by
  intro s
  obtain ⟨ns, rest, hp, hns⟩ := pacing_sleep s
  have ht : paceOp s = { s with trace := s.trace ++ .sleep ns :: rest, tPrev := paceWake s, batchCnt := 0,
                                slot := .top } := by rw [paceOp, hp]
  exact ⟨_, congrArg Host.Outcome.next ht, tPrev_le_paceWake s, rfl, rfl, rfl, ns, rest, rfl, hns⟩

end Sys2Proof.Machine
end

section
/-! PROOFS. The two address maps (R62, R63): an equation per range, the mirrors and windows of space `C` (R64), and
what resolving a resolved address does. -/

namespace Sys2Proof.Machine

/-! ## Space `C`, range by range -/

theorem routeC_ram {a : Addr} (h : a.toNat ≤ 0x1FFF) : routeC a = (.ram, a &&& Config.ramMask) := if_pos h

theorem routeC_window {a : Addr} (h : 0x2000 ≤ a.toNat) (h' : a.toNat ≤ 0x3FFF) :
    routeC a = (.ppureg, Config.pregBase ||| (a &&& Config.pregMask)) := by
  rw [routeC, if_neg (by omega), if_pos h']

/-- No fold applies from `0x4000` up in space `C` (R62). -/
theorem routeC_unfolded {a : Addr} (h : 0x4000 ≤ a.toNat) : (routeC a).2 = a := by
  simp (disch := omega) only [routeC, if_neg]
  repeat' split
  all_goals rfl

/-- Settles O8: in each range the tests of the ranges below it fail and its own succeeds. -/
theorem processorMap : Obligations.ProcessorMap := by
  intro a
  refine ⟨routeC_ram, routeC_window, ?apu, ?oamdma, ?status, ?ctrl, ?frame, ?unmapped, ?cart⟩
  all_goals
    intros
    simp (disch := omega) only [routeC, if_pos, if_neg]

/-- Two addresses of the working-RAM range with the same low eleven bits are routed alike (R64 c). -/
theorem routeC_ram_congr {a b : Addr} (ha : a.toNat ≤ 0x1FFF) (hb : b.toNat ≤ 0x1FFF)
    (h : a.toNat % 2048 = b.toNat % 2048) : routeC a = routeC b := by
  have hm : a &&& Config.ramMask = b &&& Config.ramMask :=
    BitVec.eq_of_toNat_eq (by rw [toNat_ramMask, toNat_ramMask, h])
  rw [routeC_ram ha, routeC_ram hb, hm]

/-- Settles O10: a mirror is a whole number of times `0x0800` away, which the low eleven bits do not see. -/
theorem ramMirrors : Obligations.RamMirrors := by
  refine ⟨fun a b ha hb h => ?_, fun a k ha hk => ?_⟩
  · have hm := congrArg BitVec.toNat h
    rw [toNat_ramMask, toNat_ramMask] at hm
    exact routeC_ram_congr ha hb hm
  · have hsum : (a + BitVec.ofNat 16 (0x0800 * k)).toNat = a.toNat + 0x0800 * k := by
      rw [BitVec.toNat_add, BitVec.toNat_ofNat]
      omega
    exact routeC_ram_congr (by omega) (by omega) (by omega)

/-- Two addresses of the register windows with the same low three bits are routed alike (R64 d). -/
theorem routeC_window_congr {a b : Addr} (ha : 0x2000 ≤ a.toNat) (ha' : a.toNat ≤ 0x3FFF) (hb : 0x2000 ≤ b.toNat)
    (hb' : b.toNat ≤ 0x3FFF) (h : a.toNat % 8 = b.toNat % 8) : routeC a = routeC b := by
  have hm : a &&& Config.pregMask = b &&& Config.pregMask :=
    BitVec.eq_of_toNat_eq (by rw [toNat_pregMask, toNat_pregMask, h])
  rw [routeC_window ha ha', routeC_window hb hb', hm]

/-- Settles O11: the window's equation, with its resolved address read as a number. -/
theorem registerWindows : Obligations.RegisterWindows := by
  intro a h h'
  rw [routeC_window h h']
  exact ⟨rfl, toNat_pregBase a⟩

/-! ## Space `P`, range by range -/

theorem routeP0_cart {a : Addr} (h : a.toNat ≤ 0x1FFF) : routeP0 a = (.cart, a) := if_pos h

theorem routeP0_vram {a : Addr} (h : 0x2000 ≤ a.toNat) (h' : a.toNat ≤ 0x3EFF) :
    routeP0 a = (.vram, a &&& Config.ntMask) := by
  rw [routeP0, if_neg (by omega), if_pos h']

theorem routeP0_pal {a : Addr} (h : 0x3F00 ≤ a.toNat) : routeP0 a = (.pal, a) := by
  rw [routeP0, if_neg (by omega), if_neg (by omega)]

theorem routeP_low {a : Addr} (h : a.toNat ≤ 0x3FFF) : routeP a = routeP0 a := if_pos h

/-- The non-recursive form of `routeP` (R63): the fold leaves an address below `0x4000` alone. -/
theorem routeP_eq_routeP0 (a : Addr) : routeP a = routeP0 (a &&& Config.pspaceMask) := by
  by_cases h : a.toNat ≤ 0x3FFF
  · rw [routeP_low h, pspace_id (by omega)]
  · exact if_neg h

/-- The fold of space `P` is taken once: folding an address first does not change its route (R63). -/
theorem routeP_pspace (a : Addr) : routeP a = routeP (a &&& Config.pspaceMask) := by
  have h := pspace_lt a
  rw [routeP_eq_routeP0, routeP_low (by omega)]

/-- Settles O9: below `0x4000` the three arms of `routeP0`, from there up the fold. -/
theorem pictureMap : Obligations.PictureMap := by
  intro a
  refine ⟨fun h => ?_, fun h h' => ?_, fun h h' => ?_, fun _ => routeP_pspace a⟩
  · rw [routeP_low (by omega), routeP0_cart h]
  · rw [routeP_low (by omega), routeP0_vram h h']
  · rw [routeP_low h', routeP0_pal h]

/-! ## Resolving a resolved address -/

/-- A mask, or a window's base and mask, keeps the address in its range and the low bits that range is routed by; from
`0x4000` up the resolved address is the address (R64 f). -/
theorem routeC_resolved (a : Addr) : routeC (routeC a).2 = routeC a := by
  by_cases hram : a.toNat ≤ 0x1FFF
  · have hm := toNat_ramMask a
    have hra : (routeC a).2 = a &&& Config.ramMask := by rw [routeC_ram hram]
    rw [hra]
    exact routeC_ram_congr (by omega) hram (by omega)
  by_cases hwin : a.toNat ≤ 0x3FFF
  · have hm := toNat_pregBase a
    have hra : (routeC a).2 = Config.pregBase ||| (a &&& Config.pregMask) := by rw [routeC_window (by omega) hwin]
    rw [hra]
    exact routeC_window_congr (by omega) (by omega) (by omega) hwin (by omega)
  · rw [routeC_unfolded (by omega)]

/-- The window mask keeps a video-RAM address in `0x2000` to `0x2FFF`, where it is the identity on what it left; the
other arms resolve an address to itself (R64 f). -/
theorem routeP0_resolved {a : Addr} (h : a.toNat < 0x4000) :
    (routeP0 a).2.toNat < 0x4000 ∧ routeP0 (routeP0 a).2 = routeP0 a := by
  by_cases hcart : a.toNat ≤ 0x1FFF
  · simp only [routeP0_cart hcart, h, and_self]
  by_cases hvram : a.toNat ≤ 0x3EFF
  · obtain ⟨hlo, hhi⟩ := ntMask_range (a := a) (by omega) h
    rw [routeP0_vram (by omega) hvram]
    dsimp only
    rw [routeP0_vram hlo (by omega), BitVec.and_assoc, BitVec.and_self]
    exact ⟨by omega, rfl⟩
  · simp only [routeP0_pal (a := a) (by omega), h, and_self]

theorem routeP_resolved (a : Addr) : routeP (routeP a).2 = routeP a := by
  obtain ⟨hlt, hfix⟩ := routeP0_resolved (pspace_lt a)
  rw [routeP_eq_routeP0 a, routeP_low (by omega), hfix]

/-- Only the middle arm of `routeP` answers `VRAM`, and its mask keeps the address there (R63). -/
theorem routeP_vram_range {a : Addr} (h : (routeP a).1 = .vram) :
    0x2000 ≤ (routeP a).2.toNat ∧ (routeP a).2.toNat ≤ 0x2FFF := by
  rw [routeP_eq_routeP0] at h ⊢
  have hlt := pspace_lt a
  generalize a &&& Config.pspaceMask = b at h hlt ⊢
  by_cases hcart : b.toNat ≤ 0x1FFF
  · simp [routeP0_cart hcart] at h
  by_cases hvram : b.toNat ≤ 0x3EFF
  · rw [routeP0_vram (by omega) hvram]
    exact ntMask_range (by omega) hlt
  · simp [routeP0_pal (a := b) (by omega)] at h

/-- Settles O12: the three facts above, in both spaces. -/
theorem foldIdempotent : Obligations.FoldIdempotent := by
  refine ⟨fun sp a => ?_, routeP_eq_routeP0, fun _ => routeP_vram_range⟩
  cases sp with
  | c => exact routeC_resolved a
  | p => exact routeP_resolved a

end Sys2Proof.Machine
end

section
/-! PROOFS. The encoding (R90 to R104): the decoder of a unit, the round trip of every row, the rows of the table
against the decoder and against each other. -/

namespace Sys2Proof

/-! ## The decoder, unit by unit (R96) -/

theorem decodeW_unit0 {w : OpWord} (h : unitOf w = 0#4) : decodeW w = decodeBus decodeCRead decodeCWrite w := by
  rw [decodeW, if_pos h]

theorem decodeW_unit1 {w : OpWord} (h : unitOf w = 1#4) : decodeW w = decodeBus decodePRead decodePWrite w := by
  simp [decodeW, h]

theorem decodeW_unit2 {w : OpWord} (h : unitOf w = 2#4) : decodeW w = decodeIrq w := by
  simp [decodeW, h]

theorem decodeW_unit3 {w : OpWord} (h : unitOf w = 3#4) : decodeW w = decodeClk w := by
  simp [decodeW, h]

theorem decodeW_unit4 {w : OpWord} (h : unitOf w = 4#4) : decodeW w = decodeSfs w := by
  simp [decodeW, h]

theorem decodeW_reservedUnit {w : OpWord} (h : 5 ≤ (unitOf w).toNat) : decodeW w = .error .reservedUnit := by
  have hu : ∀ k : BitVec 4, k.toNat < 5 → unitOf w ≠ k := fun k hk hw => by rw [hw] at h; omega
  simp [decodeW, hu]

theorem decode_busWord_c_read (org : Origin) (a : Addr) (v : Byte) :
    decode (.w (busWord 0#4 org false a v)) = .ok (decodeCRead org a) :=
  (decodeW_unit0 (unitOf_opWord ..)).trans (decodeBus_busWord_read ..)

theorem decode_busWord_c_write (org : Origin) (a : Addr) (v : Byte) :
    decode (.w (busWord 0#4 org true a v)) = .ok (decodeCWrite org a v) :=
  (decodeW_unit0 (unitOf_opWord ..)).trans (decodeBus_busWord_write ..)

theorem decode_busWord_p_read (org : Origin) (a : Addr) (v : Byte) :
    decode (.w (busWord 1#4 org false a v)) = .ok (decodePRead org a) :=
  (decodeW_unit1 (unitOf_opWord ..)).trans (decodeBus_busWord_read ..)

theorem decode_busWord_p_write (org : Origin) (a : Addr) (v : Byte) :
    decode (.w (busWord 1#4 org true a v)) = .ok (decodePWrite org a v) :=
  (decodeW_unit1 (unitOf_opWord ..)).trans (decodeBus_busWord_write ..)

/-! ## The round trip -/

theorem inRange_iff {lo hi : Nat} {a : Addr} : inRange lo hi a = true ↔ lo ≤ a.toNat ∧ a.toNat ≤ hi := by
  simp [inRange]

/-- Settles O1: a bus word decodes to the row of its address, and for an address in the block of a row the tests of the
blocks below fail and the row's own succeeds. The other words hold a fixed unit and function. -/
theorem decodeEncode : Obligations.DecodeEncode := by
  intro i h
  cases i
  case cRamRd | cPpuregRd | cApuRd4000 | cApuRd4010 | cNoneRd4018 | cNoneRd4020 | cNoneRd4040 | cNoneRd4080
      | cNoneRd4100 | cNoneRd4200 | cNoneRd4400 | cNoneRd4800 | cNoneRd5000 | cCartRd6000 | cCartRd8000 =>
    rw [wellFormed, inRange_iff] at h
    rw [encode, decode_busWord_c_read]
    simp (disch := omega) only [decodeCRead, if_pos, if_neg]
  case cRamWr | cPpuregWr | cApuWr4000 | cApuWr4010 | cNoneWr4018 | cNoneWr4020 | cNoneWr4040 | cNoneWr4080
      | cNoneWr4100 | cNoneWr4200 | cNoneWr4400 | cNoneWr4800 | cNoneWr5000 | cCartWr6000 | cCartWr8000 =>
    rw [wellFormed, inRange_iff] at h
    rw [encode, decode_busWord_c_write]
    simp (disch := omega) only [decodeCWrite, if_pos, if_neg]
  case cApuRd4015 | cApuRd4017 | cOamdmaRd | cCtrlRd => exact decode_busWord_c_read ..
  case cApuWr4015 | cApuWr4017 | cOamdmaWr | cCtrlWr => exact decode_busWord_c_write ..
  case pCartRd | pVramRd2000 | pVramRd3000 | pVramRd3800 | pVramRd3C00 | pVramRd3E00 | pPalRd =>
    rw [wellFormed, inRange_iff] at h
    rw [encode, decode_busWord_p_read]
    simp (disch := omega) only [decodePRead, if_pos, if_neg]
  case pCartWr | pVramWr2000 | pVramWr3000 | pVramWr3800 | pVramWr3C00 | pVramWr3E00 | pPalWr =>
    rw [wellFormed, inRange_iff] at h
    rw [encode, decode_busWord_p_write]
    simp (disch := omega) only [decodePWrite, if_pos, if_neg]
  case irqReg | srcSet | srcClr =>
    rw [encode, decode, decodeW_unit2 (unitOf_opWord ..)]
    simp [decodeIrq]
  all_goals decide

/-! ## What the decoder reads is the row of the table (R104) -/

open Laws.TableRow in
/-- The operand check of a row is the row's mask and match: the laws of the rows (R104), for any operation. -/
theorem wellFormed_eq_selects_encode (i : Instr) : wellFormed i = (tableRow i).selects (encode i) := by
  cases i
  exacts [cRamRd .., cRamWr .., cPpuregRd .., cPpuregWr .., cApuRd4000 .., cApuRd4010 .., cApuRd4015 .., cApuRd4017 ..,
    cApuWr4000 .., cApuWr4010 .., cApuWr4015 .., cApuWr4017 .., cOamdmaRd .., cOamdmaWr .., cCtrlRd .., cCtrlWr ..,
    cNoneRd4018 .., cNoneRd4020 .., cNoneRd4040 .., cNoneRd4080 .., cNoneRd4100 .., cNoneRd4200 .., cNoneRd4400 ..,
    cNoneRd4800 .., cNoneRd5000 .., cNoneWr4018 .., cNoneWr4020 .., cNoneWr4040 .., cNoneWr4080 .., cNoneWr4100 ..,
    cNoneWr4200 .., cNoneWr4400 .., cNoneWr4800 .., cNoneWr5000 .., cCartRd6000 .., cCartRd8000 .., cCartWr6000 ..,
    cCartWr8000 .., pCartRd .., pCartWr .., pVramRd2000 .., pVramRd3000 .., pVramRd3800 .., pVramRd3C00 ..,
    pVramRd3E00 .., pVramWr2000 .., pVramWr3000 .., pVramWr3800 .., pVramWr3C00 .., pVramWr3E00 .., pPalRd ..,
    pPalWr .., irqReg .., irqPoll, srcSet .., srcClr .., clkStart, clkTick, clkShutdown, imgWrite, imgRead, ctrlWrite,
    ctrlRead, seqIdle, seqTop, seqCpu, seqApu, seqPpu0, seqPpu1, seqPpu2, seqPace, seqDrain, seqHalt]

/-- The mask of a format `W` row leaves out the data field `W[7:0]`, which a read ignores (R96). -/
def TableRow.ignoresData : TableRow → Bool
  | .w mask _ => arg8Of mask == 0#8
  | .s _ _ => true

theorem tableRow_ignoresData (i : Instr) : (tableRow i).ignoresData = true := by
  cases i <;> rfl

theorem TableRow.selects_data {r : TableRow} (hr : r.ignoresData = true) (u f : BitVec 4) (a : BitVec 16)
    (v v' : Byte) : r.selects (.w (opWord u f a v)) = r.selects (.w (opWord u f a v')) := by
  cases r with
  | w mask pattern =>
    have hm : mask = opWord (unitOf mask) (fnOf mask) (arg16Of mask) 0#8 := by
      rw [← beq_iff_eq.mp hr, opWord_fields]
    rw [TableRow.selects, TableRow.selects, hm, opWord_and, opWord_and, BitVec.and_zero, BitVec.and_zero]
  | s mask pattern => rfl

/-- A well-formed operation whose word is `c`. -/
def IsWordOf (c : Code) (i : Instr) : Prop := wellFormed i = true ∧ encode i = c

/-- A well-formed operation whose row of the table selects `c` (R104). -/
def FollowsTable (c : Code) (i : Instr) : Prop := wellFormed i = true ∧ (tableRow i).selects c = true

/-- The row of an operation selects its word, with any data. -/
theorem IsWordOf.followsTable {u f : BitVec 4} {a : BitVec 16} {v : Byte} {i : Instr}
    (h : IsWordOf (.w (opWord u f a v)) i) (v' : Byte) : FollowsTable (.w (opWord u f a v')) i := by
  obtain ⟨hwf, henc⟩ := h
  refine ⟨hwf, ?_⟩
  rw [TableRow.selects_data (tableRow_ignoresData i) u f a v' v, ← henc, ← wellFormed_eq_selects_encode, hwf]

theorem isWordOf_decodeCRead (org : Origin) (a : Addr) :
    IsWordOf (.w (busWord 0#4 org false a 0#8)) (decodeCRead org a) := by
  apply decodeCRead_elim
  case cOamdmaRd | cApuRd4015 | cCtrlRd | cApuRd4017 => rintro rfl; exact ⟨rfl, rfl⟩
  all_goals exact fun h => ⟨h, rfl⟩

theorem isWordOf_decodeCWrite (org : Origin) (a : Addr) (v : Byte) :
    IsWordOf (.w (busWord 0#4 org true a v)) (decodeCWrite org a v) := by
  apply decodeCWrite_elim
  case cOamdmaWr | cApuWr4015 | cCtrlWr | cApuWr4017 => rintro rfl; exact ⟨rfl, rfl⟩
  all_goals exact fun h => ⟨h, rfl⟩

theorem isWordOf_decodePRead (org : Origin) (a : Addr) :
    IsWordOf (.w (busWord 1#4 org false a 0#8)) (decodePRead org a) := by
  apply decodePRead_elim
  all_goals exact fun h => ⟨h, rfl⟩

theorem isWordOf_decodePWrite (org : Origin) (a : Addr) (v : Byte) :
    IsWordOf (.w (busWord 1#4 org true a v)) (decodePWrite org a v) := by
  apply decodePWrite_elim
  all_goals exact fun h => ⟨h, rfl⟩

/-- A decoded bus word follows the table when the row of every read and every write has that word. -/
theorem decodeBus_followsTable {rd : Origin → Addr → Instr} {wr : Origin → Addr → Byte → Instr} {w : OpWord} {i : Instr}
    (hrd : ∀ org a, IsWordOf (.w (busWord (unitOf w) org false a 0#8)) (rd org a))
    (hwr : ∀ org a v, IsWordOf (.w (busWord (unitOf w) org true a v)) (wr org a v))
    (h : decodeBus rd wr w = .ok i) : FollowsTable (.w w) i := by
  obtain ⟨hfn, rfl⟩ := decodeBus_ok h
  have hw := busWord_fields hfn
  cases hwe : (fnOf w).getLsbD 0 with
  | false =>
    have hrow := (hrd (orgOf (fnOf w)) (arg16Of w)).followsTable (arg8Of w)
    rw [hwe] at hw
    rwa [← busWord, hw] at hrow
  | true =>
    have hrow := (hwr (orgOf (fnOf w)) (arg16Of w) (arg8Of w)).followsTable (arg8Of w)
    rw [hwe] at hw
    rwa [← busWord, hw] at hrow

/-- The rows of units 2 to 4 are selected by unit and function alone (R96). -/
theorem followsTable_of_unitFn {w : OpWord} {u f : BitVec 4} {i : Instr} (hu : unitOf w = u) (hf : fnOf w = f)
    (hwf : wellFormed i = true) (hrow : tableRow i = .w 0xFF000000#32 (opWord u f 0#16 0#8)) :
    FollowsTable (.w w) i := by
  refine ⟨hwf, ?_⟩
  rw [hrow, TableRow.selects, and_unitFn, hu, hf, beq_self_eq_true]

theorem decodeIrq_followsTable {w : OpWord} {i : Instr} (hu : unitOf w = 2#4) (h : decodeIrq w = .ok i) :
    FollowsTable (.w w) i := by
  unfold decodeIrq at h
  repeat' split at h
  all_goals cases h <;> exact followsTable_of_unitFn hu ‹_› rfl rfl

theorem decodeClk_followsTable {w : OpWord} {i : Instr} (hu : unitOf w = 3#4) (h : decodeClk w = .ok i) :
    FollowsTable (.w w) i := by
  unfold decodeClk at h
  repeat' split at h
  all_goals cases h <;> exact followsTable_of_unitFn hu ‹_› rfl rfl

theorem decodeSfs_followsTable {w : OpWord} {i : Instr} (hu : unitOf w = 4#4) (h : decodeSfs w = .ok i) :
    FollowsTable (.w w) i := by
  unfold decodeSfs at h
  repeat' split at h
  all_goals cases h <;> exact followsTable_of_unitFn hu ‹_› rfl rfl

/-- The 32 words of format `S` (R98). -/
theorem decodeS_followsTable {w : SeqWord} {i : Instr} (h : decodeS w = .ok i) : FollowsTable (.s w) i := by
  have key : ∀ w : SeqWord, (decodeS w).toOption.all fun i => wellFormed i && (tableRow i).selects (.s w) := by decide
  have hw := key w
  rw [h] at hw
  exact Bool.and_eq_true_iff.mp hw

/-- The units of an operation word (R96, R100). -/
theorem unitOf_cases (w : OpWord) : unitOf w = 0#4 ∨ unitOf w = 1#4 ∨ unitOf w = 2#4 ∨ unitOf w = 3#4 ∨ unitOf w = 4#4 ∨
    5 ≤ (unitOf w).toNat := by
  bv_omega

theorem decodeW_followsTable {w : OpWord} {i : Instr} (h : decodeW w = .ok i) : FollowsTable (.w w) i := by
  obtain hu | hu | hu | hu | hu | hu := unitOf_cases w
  · rw [decodeW_unit0 hu] at h
    exact decodeBus_followsTable (hu ▸ isWordOf_decodeCRead) (hu ▸ isWordOf_decodeCWrite) h
  · rw [decodeW_unit1 hu] at h
    exact decodeBus_followsTable (hu ▸ isWordOf_decodePRead) (hu ▸ isWordOf_decodePWrite) h
  · exact decodeIrq_followsTable hu (decodeW_unit2 hu ▸ h)
  · exact decodeClk_followsTable hu (decodeW_unit3 hu ▸ h)
  · exact decodeSfs_followsTable hu (decodeW_unit4 hu ▸ h)
  · rw [decodeW_reservedUnit hu] at h
    cases h

/-- Settles O2: format by format, and in format `W` unit by unit. -/
theorem decodeFollowsTable : Obligations.DecodeFollowsTable := by
  intro c i h
  cases c with
  | w word => exact decodeW_followsTable h
  | s word => exact decodeS_followsTable h

/-! ## The rows against each other (R104) -/

/-- Two rows no word can match: of different formats, or asking for different values of a bit both masks hold. -/
def TableRow.conflicts : TableRow → TableRow → Bool
  | .w m p, .w m' p' => p &&& m' != p' &&& m
  | .s m p, .s m' p' => p &&& m' != p' &&& m
  | .w _ _, .s _ _ => true
  | .s _ _, .w _ _ => true

theorem TableRow.eq_of_selects_w {r : TableRow} {word : OpWord} (h : r.selects (.w word) = true) :
    ∃ mask, r = .w mask (word &&& mask) := by
  cases r with
  | w mask pattern => exact ⟨mask, by rw [beq_iff_eq.mp h]⟩
  | s mask pattern => cases h

theorem TableRow.eq_of_selects_s {r : TableRow} {word : SeqWord} (h : r.selects (.s word) = true) :
    ∃ mask, r = .s mask (word &&& mask) := by
  cases r with
  | w mask pattern => cases h
  | s mask pattern => exact ⟨mask, by rw [beq_iff_eq.mp h]⟩

/-- A word that two rows select shows both patterns on the bits the masks share, so these agree there. -/
theorem TableRow.not_conflicts_of_selects {r r' : TableRow} {c : Code} (h : r.selects c = true)
    (h' : r'.selects c = true) : r.conflicts r' = false := by
  cases c with
  | w word =>
    obtain ⟨mask, rfl⟩ := eq_of_selects_w h
    obtain ⟨mask', rfl⟩ := eq_of_selects_w h'
    simp [conflicts, BitVec.and_assoc, BitVec.and_comm mask]
  | s word =>
    obtain ⟨mask, rfl⟩ := eq_of_selects_s h
    obtain ⟨mask', rfl⟩ := eq_of_selects_s h'
    simp [conflicts, BitVec.and_assoc, BitVec.and_comm mask]

/-- One operation for every row of the table. -/
def rowOps : List Instr :=
  [.cRamRd 0 0, .cRamWr 0 0 0, .cPpuregRd 0 0, .cPpuregWr 0 0 0, .cApuRd4000 0 0, .cApuRd4010 0 0, .cApuRd4015 0,
   .cApuRd4017 0, .cApuWr4000 0 0 0, .cApuWr4010 0 0 0, .cApuWr4015 0 0, .cApuWr4017 0 0, .cOamdmaRd 0,
   .cOamdmaWr 0 0, .cCtrlRd 0, .cCtrlWr 0 0, .cNoneRd4018 0 0, .cNoneRd4020 0 0, .cNoneRd4040 0 0,
   .cNoneRd4080 0 0, .cNoneRd4100 0 0, .cNoneRd4200 0 0, .cNoneRd4400 0 0, .cNoneRd4800 0 0, .cNoneRd5000 0 0,
   .cNoneWr4018 0 0 0, .cNoneWr4020 0 0 0, .cNoneWr4040 0 0 0, .cNoneWr4080 0 0 0, .cNoneWr4100 0 0 0,
   .cNoneWr4200 0 0 0, .cNoneWr4400 0 0 0, .cNoneWr4800 0 0 0, .cNoneWr5000 0 0 0, .cCartRd6000 0 0,
   .cCartRd8000 0 0, .cCartWr6000 0 0 0, .cCartWr8000 0 0 0, .pCartRd 0 0, .pCartWr 0 0 0, .pVramRd2000 0 0,
   .pVramRd3000 0 0, .pVramRd3800 0 0, .pVramRd3C00 0 0, .pVramRd3E00 0 0, .pVramWr2000 0 0 0,
   .pVramWr3000 0 0 0, .pVramWr3800 0 0 0, .pVramWr3C00 0 0 0, .pVramWr3E00 0 0 0, .pPalRd 0 0, .pPalWr 0 0 0,
   .irqReg 0, .irqPoll, .srcSet 0, .srcClr 0, .clkStart, .clkTick, .clkShutdown, .imgWrite, .imgRead, .ctrlWrite,
   .ctrlRead, .seqIdle, .seqTop, .seqCpu, .seqApu, .seqPpu0, .seqPpu1, .seqPpu2, .seqPace, .seqDrain, .seqHalt]

theorem tableRow_mem_rowOps (i : Instr) : tableRow i ∈ rowOps.map tableRow := by
  rw [← List.contains_iff_mem]
  cases i <;> rfl

/-- Every two of the table's rows conflict: a comparison of their masks and patterns. -/
theorem rowOps_conflict : (rowOps.map tableRow).Pairwise fun r r' => r.conflicts r' = true := by
  decide

theorem TableRow.conflicts_comm : ∀ r r' : TableRow, r.conflicts r' = r'.conflicts r
  | .w _ _, .w _ _ => bne_comm
  | .s _ _, .s _ _ => bne_comm
  | .w _ _, .s _ _ => rfl
  | .s _ _, .w _ _ => rfl

theorem tableRow_conflicts_of_ne {i j : Instr} (h : tableRow i ≠ tableRow j) :
    (tableRow i).conflicts (tableRow j) = true := by
  have hsymm : Std.Symm fun r r' : TableRow => r.conflicts r' = true :=
    ⟨fun r r' hr => (TableRow.conflicts_comm r' r).trans hr⟩
  exact rowOps_conflict.forall (tableRow_mem_rowOps i) (tableRow_mem_rowOps j) h

end Sys2Proof

namespace Sys2Proof.Machine

/-! ## Reserved words (R100) -/

theorem isOk_decodeBus (rd : Origin → Addr → Instr) (wr : Origin → Addr → Byte → Instr) (w : OpWord) :
    (decodeBus rd wr w).isOk = !(fnOf w).getLsbD 3 := by
  unfold decodeBus
  cases (fnOf w).getLsbD 3 with
  | true => rfl
  | false => cases (fnOf w).getLsbD 0 <;> rfl

theorem isOk_decodeIrq (w : OpWord) : (decodeIrq w).isOk = !decide (4 ≤ (fnOf w).toNat) := by
  unfold decodeIrq
  generalize fnOf w = fn
  generalize arg16Of w = id
  obtain ⟨n, hn⟩ := fn
  interval_cases n <;> rfl

theorem isOk_decodeClk (w : OpWord) : (decodeClk w).isOk = !decide (3 ≤ (fnOf w).toNat) := by
  unfold decodeClk
  generalize fnOf w = fn
  revert fn
  decide

theorem isOk_decodeSfs (w : OpWord) :
    (decodeSfs w).isOk = [0b0000, 0b0101, 0b0110, 0b0011].contains (fnOf w).toNat := by
  unfold decodeSfs
  generalize fnOf w = fn
  revert fn
  decide

/-- The reserved words are the ones the decoder rejects. -/
theorem isOk_decodeW (w : OpWord) : (decodeW w).isOk = !reservedWord w := by
  unfold reservedWord
  obtain hu | hu | hu | hu | hu | hu := unitOf_cases w
  · rw [decodeW_unit0 hu, isOk_decodeBus, hu]
    simp
  · rw [decodeW_unit1 hu, isOk_decodeBus, hu]
    simp
  · rw [decodeW_unit2 hu, isOk_decodeIrq, hu]
    simp
  · rw [decodeW_unit3 hu, isOk_decodeClk, hu]
    simp
  · rw [decodeW_unit4 hu, isOk_decodeSfs, hu]
    simp
  · rw [decodeW_reservedUnit hu, decide_eq_true hu]
    rfl

theorem decodeW_ok_of_not_reserved {w : OpWord} (h : reservedWord w = false) : ∃ i, decodeW w = .ok i := by
  have hok := isOk_decodeW w
  cases hd : decodeW w with
  | ok i => exact ⟨i, rfl⟩
  | error e => simp [hd, h, Except.isOk, Except.toBool] at hok

theorem decodeW_error_of_reserved {w : OpWord} (h : reservedWord w = true) : ∃ e, decodeW w = .error e := by
  have hok := isOk_decodeW w
  cases hd : decodeW w with
  | ok i => simp [hd, h, Except.isOk, Except.toBool] at hok
  | error e => exact ⟨e, rfl⟩

/-- Settles O4: what is fetched is the word's decoding, which a reserved word alone does not have. -/
theorem reservedWordsRefused : Obligations.ReservedWordsRefused := by
  refine ⟨fun s w inp rest hs hw => ?_, fun w => decodeW_ok_of_not_reserved⟩
  obtain ⟨e, he⟩ := decodeW_error_of_reserved hw
  rw [step_error ((fetch_of_word hs).trans he), latch_of_presented hs]
  rfl

theorem not_reserved_of_bus {w : OpWord} (hu : (unitOf w).toNat ≤ 1) (hfn : (fnOf w).getLsbD 3 = false) :
    reservedWord w = false := by
  obtain h | h : unitOf w = 0#4 ∨ unitOf w = 1#4 := by bv_omega
  all_goals simpa [reservedWord, h] using hfn

/-- Settles O3: different rows of the table conflict, so no word selects both; a bus word with `fn[3]` clear is not
reserved, so it decodes, and its row selects it. -/
theorem rowsPartition : Obligations.RowsPartition := by
  refine ⟨fun c i j hi hj => ?_, fun w hu hfn => ?_⟩
  · by_contra hne
    simpa [TableRow.not_conflicts_of_selects hi hj] using tableRow_conflicts_of_ne hne
  · obtain ⟨i, hi⟩ := decodeW_ok_of_not_reserved (not_reserved_of_bus hu hfn)
    obtain ⟨-, hsel⟩ := decodeW_followsTable hi
    exact ⟨i, hsel⟩

/-! ## The position of the sequencer (R98) -/

/-- A micro-operation at its own position is what the position selects (R187). -/
theorem exec_of_position {s : State} {i : Instr} (h : decodeS (positionWord s) = .ok i) :
    exec i s = finish (microOp s) s := by
  rw [decodeS_position] at h
  unfold microOp
  cases hc : s.cstate with
  | idle | stopping | stopped =>
    rw [hc] at h
    cases h
    rfl
  | running =>
    rw [hc] at h
    cases hl : s.slot
    all_goals
      rw [hl] at h
      cases h <;> rfl

theorem microOp_unused7 {s : State} (hc : s.cstate = .running) (hl : s.slot = .unused7) :
    microOp s = some (refuseOp s.port.opWord s) := by
  unfold microOp
  rw [hc, hl]

/-- Settles O7: `CLK.TICK` performs `microOp`, as does the operation the position selects; the row of each position is
`decodeS_position`'s, and the one position without a row is refused. -/
theorem tickPerformsPosition : Obligations.TickPerformsPosition := by
  intro s _
  refine ⟨fun i hi => ⟨_, exec_of_position hi, rfl⟩, ?idle, ?top, ?cpu, ?apu, ?ppu0, ?ppu1, ?ppu2, ?pace, ?stopping,
    ?stopped, fun hc hl => finish_some (microOp_unused7 hc hl)⟩
  case idle | stopping | stopped =>
    intro hc
    rw [decodeS_position, hc]
  all_goals
    intro hc hl
    rw [decodeS_position, hc, hl]

/-- Settles O5: each word is decoded. -/
theorem vectorWords : Obligations.VectorWords := by
  unfold Obligations.VectorWords
  decide

/-! ## The owner codes (R93) -/

theorem routeC_owner (a : Addr) : (routeC a).1 ∈ [Owner.none, .ram, .ppureg, .apu, .ctrlDev, .cart] := by
  unfold routeC
  repeat' split
  all_goals simp only [List.mem_cons, true_or, or_true]

theorem routeP_owner (a : Addr) : (routeP a).1 ∈ [Owner.cart, .vram, .pal] := by
  rw [routeP_eq_routeP0, routeP0]
  repeat' split
  all_goals simp only [List.mem_cons, true_or, or_true]

/-- Settles O14: the codes of the owners each router has an arm for. -/
theorem ownerCodes : Obligations.OwnerCodes := by
  refine ⟨rfl, rfl, rfl, rfl, rfl, rfl, rfl, rfl, fun a => ?_, fun a => ?_⟩
  · have key : ∀ o ∈ [Owner.none, .ram, .ppureg, .apu, .ctrlDev, .cart], (ownerCode o).toNat ≤ 5 := by decide
    exact key _ (routeC_owner a)
  · have key : ∀ o ∈ [Owner.cart, .vram, .pal], 5 ≤ (ownerCode o).toNat := by decide
    exact key _ (routeP_owner a)

end Sys2Proof.Machine
end

section
/-! PROOFS. The bus operations: each row against the router of its space (R120, R121, R150, R151), what an access does
by the kind of its owner, a store's cell, a device or nobody (R122 to R135), and what every row leaves alone (R136,
R137, R159). -/

namespace Sys2Proof.Machine

/-! ## Every row is the access its address is routed to -/

theorem exec_decodeCRead (org : Origin) (a : Addr) (s : State) :
    exec (decodeCRead org a) s = busRead .c (routeC a).1 (routeC a).2 org s := by
  apply decodeCRead_elim (P := fun i => exec i s = busRead .c (routeC a).1 (routeC a).2 org s)
  case cOamdmaRd | cApuRd4015 | cCtrlRd | cApuRd4017 => rintro rfl; rfl
  all_goals
    intro h
    obtain ⟨hlo, hhi⟩ := inRange_iff.mp h
    simp (disch := omega) only [routeC, if_pos, if_neg]
    rfl

theorem exec_decodeCWrite (org : Origin) (a : Addr) (v : Byte) (s : State) :
    exec (decodeCWrite org a v) s = busWrite .c (routeC a).1 (routeC a).2 org v s := by
  apply decodeCWrite_elim (P := fun i => exec i s = busWrite .c (routeC a).1 (routeC a).2 org v s)
  case cOamdmaWr | cApuWr4015 | cCtrlWr | cApuWr4017 => rintro rfl; rfl
  all_goals
    intro h
    obtain ⟨hlo, hhi⟩ := inRange_iff.mp h
    simp (disch := omega) only [routeC, if_pos, if_neg]
    rfl

theorem exec_decodePRead (org : Origin) (a : Addr) (s : State) :
    exec (decodePRead org a) s = busRead .p (routeP a).1 (routeP a).2 org s := by
  rw [routeP_eq_routeP0]
  apply decodePRead_elim (P := fun i => exec i s = busRead .p (routeP0 _).1 (routeP0 _).2 org s)
  all_goals
    intro h
    obtain ⟨hlo, hhi⟩ := inRange_iff.mp h
    simp (disch := omega) only [routeP0, if_pos, if_neg]
    rfl

theorem exec_decodePWrite (org : Origin) (a : Addr) (v : Byte) (s : State) :
    exec (decodePWrite org a v) s = busWrite .p (routeP a).1 (routeP a).2 org v s := by
  rw [routeP_eq_routeP0]
  apply decodePWrite_elim (P := fun i => exec i s = busWrite .p (routeP0 _).1 (routeP0 _).2 org v s)
  all_goals
    intro h
    obtain ⟨hlo, hhi⟩ := inRange_iff.mp h
    simp (disch := omega) only [routeP0, if_pos, if_neg]
    rfl

/-- What a decoded bus word does: the write or the read of the owner and the resolved address its address is routed
to. -/
theorem exec_of_busWord {w : OpWord} {i : Instr} {sp : Space}
    (hsp : sp = .c ∧ unitOf w = 0#4 ∨ sp = .p ∧ unitOf w = 1#4) (h : decodeW w = .ok i) (s : State) :
    exec i s =
      if (fnOf w).getLsbD 0 then
        busWrite sp (route sp (arg16Of w)).1 (route sp (arg16Of w)).2 (orgOf (fnOf w)) (arg8Of w) s
      else busRead sp (route sp (arg16Of w)).1 (route sp (arg16Of w)).2 (orgOf (fnOf w)) s := by
  obtain ⟨rfl, hu⟩ | ⟨rfl, hu⟩ := hsp
  · rw [decodeW_unit0 hu] at h
    obtain ⟨-, rfl⟩ := decodeBus_ok h
    split
    · exact exec_decodeCWrite ..
    · exact exec_decodeCRead ..
  · rw [decodeW_unit1 hu] at h
    obtain ⟨-, rfl⟩ := decodeBus_ok h
    split
    · exact exec_decodePWrite ..
    · exact exec_decodePRead ..

/-- Settles O15: the generic entry points are the accesses of the routed owner. -/
theorem decodedFormsAreGeneric : Obligations.DecodedFormsAreGeneric := by
  intro s w i sp hsp h
  rw [exec_of_busWord hsp h]
  split <;> rfl

/-! ## With a cartridge and both locks `FREE` a bus operation completes -/

theorem bus_some {r : Option State} {s t : State} (hc : s.cartOk = true) (hr : r = some t) : bus r s = .next t := by
  rw [bus, if_pos hc, finish_some hr]

theorem completes_accessEntry (o : Owner) (s : State) : Completes (accessEntry o s) := completes_entry _ s

theorem busRead_completes {sp : Space} {o : Owner} {s : State} (hc : s.cartOk = true) (hl : LocksFree s) (ra : Addr)
    (org : Origin) : ∃ t, busRead sp o ra org s = .next t ∧ Leaves s t := by
  obtain ⟨t, ht, hleaves⟩ := completes_readOwner sp o (completes_accessEntry o s) ra org s.port.inputs.devRd s hl
  exact ⟨t, bus_some hc ht, hleaves⟩

theorem busWrite_completes {sp : Space} {o : Owner} {ra : Addr} {s : State} (hc : s.cartOk = true) (hl : LocksFree s)
    (hram : o = .ram → ra.toNat < Config.ramSize) (org : Origin) (v : Byte) :
    ∃ t, busWrite sp o ra org v s = .next t ∧ Leaves s t := by
  obtain ⟨t, ht, hleaves⟩ := completes_writeOwner sp o (completes_accessEntry o s) ra org v hram s hl
  exact ⟨t, bus_some hc ht, hleaves⟩

/-- Settles O16: the decoded operation is a write or a read of some owner, and either completes. -/
theorem busCompletes : Obligations.BusCompletes := by
  intro s w i hu h hc hl
  obtain ⟨sp, hsp⟩ : ∃ sp, sp = Space.c ∧ unitOf w = 0#4 ∨ sp = Space.p ∧ unitOf w = 1#4 := by
    obtain hu | hu : unitOf w = 0#4 ∨ unitOf w = 1#4 := by bv_omega
    · exact ⟨.c, .inl ⟨rfl, hu⟩⟩
    · exact ⟨.p, .inr ⟨rfl, hu⟩⟩
  rw [exec_of_busWord hsp h]
  split
  · obtain ⟨t, ht, hleaves⟩ := busWrite_completes hc hl route_ram (orgOf (fnOf w)) (arg8Of w)
    exact ⟨t, ht, hleaves.control⟩
  · obtain ⟨t, ht, hleaves⟩ := busRead_completes hc hl (route sp (arg16Of w)).2 (orgOf (fnOf w))
    exact ⟨t, ht, hleaves.control⟩

/-! ## An access of a store: one cell (R122, R123) -/

theorem busRead_cell {sp : Space} {o : Owner} {ra : Addr} {s : State} {st : Store} {j : Nat} (hc : s.cartOk = true)
    (h : ownerCell s.cfg (o, ra) = some (st, j)) (org : Origin) :
    busRead sp o ra org s =
      .next { s with trace := s.trace ++ [.route sp o ra, .rd (readCell st j s)] } := by
  have ht : readStore st j (routed sp o ra s) =
      { s with trace := s.trace ++ [.route sp o ra, .rd (readCell st j s)] } := by
    rw [readStore, readCell_routed]
    simp [routed, emit]
  exact bus_some hc ((readOwner_cell h sp _ org _).trans (congrArg some ht))

theorem busWrite_cell {sp : Space} {o : Owner} {ra : Addr} {s : State} {st : Store} {j : Nat} (hc : s.cartOk = true)
    (h : ownerCell s.cfg (o, ra) = some (st, j)) (org : Origin) (v : Byte) :
    busWrite sp o ra org v s = .next (writeCell st j v (routed sp o ra s)) :=
  bus_some hc (writeOwner_cell h sp _ org v)

theorem withoutStores_writeCell (st : Store) (j : Nat) (v : Byte) (s : State) :
    withoutStores (writeCell st j v s) = withoutStores s := by
  cases st <;> rfl

theorem onlyCell_writeCell_routed (st : Store) (j : Nat) (v : Byte) (sp : Space) (o : Owner) (ra : Addr) (s : State) :
    OnlyCell st j v s (writeCell st j v (routed sp o ra s)) :=
  ⟨readCell_writeCell_same .., fun _ _ h => (readCell_writeCell_other h ..).trans (readCell_routed ..)⟩

/-- Settles O19: the row's resolved address names the cell. -/
theorem ramRead : Obligations.RamRead :=
  fun _ org _ hc => busRead_cell hc rfl org

/-- Settles O20: the row's resolved address names the cell, which the write replaces. -/
theorem ramWrite : Obligations.RamWrite :=
  fun _ org _ v hc => ⟨_, busWrite_cell hc rfl org v, onlyCell_writeCell_routed .., withoutStores_writeCell .., rfl⟩

/-! ## An access nobody owns (R132, R133) -/

theorem busRead_unmapped {sp : Space} {s : State} (hc : s.cartOk = true) (ra : Addr) (org : Origin) :
    busRead sp .none ra org s =
      .next { s with trace := s.trace ++ [.route sp .none ra, .event (.unmapped ra), .rd Config.unmappedRead] } := by
  refine bus_some hc (congrArg some ?_)
  simp [routed, raiseEvent, emit]

theorem busWrite_unmapped {sp : Space} {s : State} (hc : s.cartOk = true) (ra : Addr) (org : Origin) (v : Byte) :
    busWrite sp .none ra org v s =
      .next { s with trace := s.trace ++ [.route sp .none ra, .event (.unmapped ra)] } := by
  refine bus_some hc (congrArg some ?_)
  simp [routed, raiseEvent, emit]

/-- Settles O26: each of the rows is the access of nobody, whose outputs are a route, an event and, for a read, the
byte. -/
theorem unmappedAccess : Obligations.UnmappedAccess := by
  intro s org a v hc
  refine ⟨fun i hi => ?_, fun i hi => ?_⟩
  · have hrow : exec i s = busRead .c .none a org s := by fin_cases hi <;> rfl
    exact ⟨_, _, hrow.trans (busRead_unmapped hc a org), rfl, rfl, rfl, rfl⟩
  · have hrow : exec i s = busWrite .c .none a org v s := by fin_cases hi <;> rfl
    exact ⟨_, _, hrow.trans (busWrite_unmapped hc a org v), rfl, rfl, rfl, rfl⟩

/-! ## An access of a device: one call of its entry (R124 to R131, R134, R135) -/

/-- The device an owner is (R16, R93). -/
def ownerDevice : Owner → Option Device
  | .ppureg => some .ppu
  | .apu => some .apu
  | .ctrlDev => some .ctrlDev
  | .cart => some .cart
  | .none => none
  | .ram => none
  | .vram => none
  | .pal => none

/-- The snapshot an access of an owner hands to its device: to the controller alone (R130, R131, R224). -/
def handedSnapshot : Owner → State → Option Nat
  | .ctrlDev, s => some s.ctrl
  | _, _ => none

/-- The outputs of an access up to the call of its device: the route, the reading of the snapshot if there is one, and
the call, given the snapshot. -/
def callOutputs (sp : Space) (o : Owner) (ra : Addr) (s : State) (call : Option Nat → Output) : List Output :=
  .route sp o ra :: (handedSnapshot o s).toList.map .ctrlValue ++ [call (handedSnapshot o s)]

theorem readOwner_device {o : Owner} {d : Device} {s : State} (hd : ownerDevice o = some d) (hl : s.ctrlLock = .free)
    (sp : Space) (run : State → Option State) (ra : Addr) (org : Origin) (ans : Byte) :
    readOwner sp o run ra org ans s =
      (run { s with trace := s.trace ++ callOutputs sp o ra s (.devRead d ra org) }).map (emit (.rd ans)) := by
  cases o <;> cases hd
  case ctrlDev =>
    rw [readOwner, withSnapshot_free (s := routed sp .ctrlDev ra s) hl]
    simp [devRead, routed, emit, callOutputs, handedSnapshot]
  all_goals simp [readOwner, devRead, routed, emit, callOutputs, handedSnapshot]

theorem writeOwner_device {o : Owner} {d : Device} {s : State} (hd : ownerDevice o = some d) (hl : s.ctrlLock = .free)
    (sp : Space) (run : State → Option State) (ra : Addr) (org : Origin) (v : Byte) :
    writeOwner sp o run ra org v s =
      run { s with trace := s.trace ++ callOutputs sp o ra s (.devWrite d ra org v) } := by
  cases o <;> cases hd
  case ctrlDev =>
    rw [writeOwner, withSnapshot_free (s := routed sp .ctrlDev ra s) hl]
    simp [devWrite, routed, emit, callOutputs, handedSnapshot]
  all_goals simp [writeOwner, devWrite, routed, emit, callOutputs, handedSnapshot]

/-- An operation that emits, calls the device of `o` and emits again, calls it as `CallsDevice` says: with both locks
`FREE` what the device does completes and leaves everything `control` holds. -/
theorem callsDevice_of_exec {o : Owner} {i : Instr} {s : State} {before after : List Output} (hl : LocksFree s)
    (hi : ∀ t, accessEntry o s { s with trace := s.trace ++ before } = some t →
      exec i s = .next { t with trace := t.trace ++ after }) : CallsDevice o i s before after := by
  obtain ⟨t, ht, hleaves⟩ := completes_accessEntry o s { s with trace := s.trace ++ before } hl
  refine ⟨t, ht, hleaves.control, hi t ht, fun hq => ?_⟩
  rw [accessEntry, entry_quiet hq] at ht
  exact (Option.some.inj ht).symm

theorem callsDevice_busRead {sp : Space} {o : Owner} {d : Device} {i : Instr} {ra : Addr} {org : Origin} {s : State}
    (hc : s.cartOk = true) (hl : LocksFree s) (hd : ownerDevice o = some d) (hi : exec i s = busRead sp o ra org s) :
    CallsDevice o i s (callOutputs sp o ra s (.devRead d ra org)) [.rd s.port.inputs.devRd] := by
  refine callsDevice_of_exec hl fun t ht => ?_
  rw [hi, busRead, readOwner_device hd hl.2, ht]
  exact bus_some hc rfl

theorem callsDevice_busWrite {sp : Space} {o : Owner} {d : Device} {i : Instr} {ra : Addr} {org : Origin} {v : Byte}
    {s : State} (hc : s.cartOk = true) (hl : LocksFree s) (hd : ownerDevice o = some d)
    (hi : exec i s = busWrite sp o ra org v s) :
    CallsDevice o i s (callOutputs sp o ra s (.devWrite d ra org v)) [] := by
  refine callsDevice_of_exec hl fun t ht => ?_
  rw [hi, busWrite, writeOwner_device hd hl.2, ht, List.append_nil]
  exact bus_some hc rfl

/-- Settles O22: the rows are accesses of the picture unit's window. -/
theorem pictureRegisterAccess : Obligations.PictureRegisterAccess :=
  fun _ _ _ _ hc hl => ⟨callsDevice_busRead hc hl rfl rfl, callsDevice_busWrite hc hl rfl rfl⟩

/-- Settles O23: the rows are accesses of the audio unit. -/
theorem audioRegisterAccess : Obligations.AudioRegisterAccess :=
  fun _ _ _ _ hc hl =>
    ⟨callsDevice_busRead hc hl rfl rfl, callsDevice_busRead hc hl rfl rfl, callsDevice_busRead hc hl rfl rfl,
      callsDevice_busRead hc hl rfl rfl, callsDevice_busWrite hc hl rfl rfl, callsDevice_busWrite hc hl rfl rfl,
      callsDevice_busWrite hc hl rfl rfl, callsDevice_busWrite hc hl rfl rfl⟩

/-- Settles O24: the rows are accesses of the picture unit. -/
theorem bulkTransferRegister : Obligations.BulkTransferRegister :=
  fun _ _ _ hc hl => ⟨callsDevice_busRead hc hl rfl rfl, callsDevice_busWrite hc hl rfl rfl⟩

/-- Settles O25: the rows are accesses of the controller, the one owner a snapshot is handed to. -/
theorem controllerAccess : Obligations.ControllerAccess :=
  fun _ _ _ hc hl => ⟨callsDevice_busRead hc hl rfl rfl, callsDevice_busWrite hc hl rfl rfl⟩

/-- Settles O27: the rows are accesses of the cartridge. -/
theorem cartridgeAccess : Obligations.CartridgeAccess :=
  fun _ _ _ _ hc hl =>
    ⟨callsDevice_busRead hc hl rfl rfl, callsDevice_busRead hc hl rfl rfl, callsDevice_busWrite hc hl rfl rfl,
      callsDevice_busWrite hc hl rfl rfl⟩

/-! ## One operation, one owner (R137, R159) -/

/-- An owner is nobody, a store or a device. -/
theorem owner_cases (cfg : Params) (o : Owner) (ra : Addr) :
    o = .none ∨ (∃ st j, ownerCell cfg (o, ra) = some (st, j)) ∨
      (ownerCell cfg (o, ra) = none ∧ o ≠ .none ∧ ∃ d, ownerDevice o = some d) := by
  cases o with
  | none => exact .inl rfl
  | ram | vram | pal => exact .inr (.inl ⟨_, _, rfl⟩)
  | ppureg | apu | ctrlDev | cart => exact .inr (.inr ⟨rfl, nofun, _, rfl⟩)

/-- From `s` to `t` an access of the owner and resolved address `r` touched that owner alone: outside the stores only
outputs were added, no other cell reads differently, and a device's entry was called exactly if the owner is a device,
once. -/
def TouchesOwner (r : Owner × Addr) (s t : State) : Prop :=
  ∃ new, t.trace = s.trace ++ new ∧ withoutStores t = withoutStores s ∧
    (∀ st j, ownerCell s.cfg r ≠ some (st, j) → readCell st j t = readCell st j s) ∧
    (new.filter isDeviceCall).length = if ownerCell s.cfg r = none ∧ r.1 ≠ .none then 1 else 0

/-- An access that only adds outputs touches no cell. -/
theorem touchesOwner_of_outputs {r : Owner × Addr} {s : State} {new : List Output}
    (h : (new.filter isDeviceCall).length = if ownerCell s.cfg r = none ∧ r.1 ≠ .none then 1 else 0) :
    TouchesOwner r s { s with trace := s.trace ++ new } :=
  ⟨new, rfl, rfl, fun st _ _ => by cases st <;> rfl, h⟩

theorem touchesOwner_writeCell {sp : Space} {o : Owner} {ra : Addr} {s : State} {st : Store} {j : Nat}
    (h : ownerCell s.cfg (o, ra) = some (st, j)) (v : Byte) :
    TouchesOwner (o, ra) s (writeCell st j v (routed sp o ra s)) := by
  obtain ⟨-, hother⟩ := onlyCell_writeCell_routed st j v sp o ra s
  refine ⟨[.route sp o ra], writeCell_trace .., withoutStores_writeCell .., fun st' j' hne => hother st' j' ?_, ?_⟩
  · contrapose! hne
    obtain ⟨rfl, rfl⟩ := hne
    exact h
  · simp [h, isDeviceCall]

/-- A call of a device adds one call to the outputs. -/
theorem callOutputs_calls {call : Option Nat → Output} (h : ∀ snap, isDeviceCall (call snap) = true) (sp : Space)
    (o : Owner) (ra : Addr) (s : State) :
    (callOutputs sp o ra s call).filter isDeviceCall = [call (handedSnapshot o s)] := by
  have hsnap : ((handedSnapshot o s).toList.map Output.ctrlValue).filter isDeviceCall = [] := by
    cases handedSnapshot o s <;> rfl
  have hroute : isDeviceCall (.route sp o ra) = false := rfl
  simp [callOutputs, hsnap, hroute, h]

theorem accessEntry_quiet {s : State} (hq : s.port.inputs.acts = .done) (o : Owner) : accessEntry o s = some :=
  entry_quiet hq _

theorem busRead_touchesOwner {s : State} (hc : s.cartOk = true) (hl : LocksFree s) (hq : s.port.inputs.acts = .done)
    (sp : Space) (o : Owner) (ra : Addr) (org : Origin) :
    ∃ t, busRead sp o ra org s = .next t ∧ TouchesOwner (o, ra) s t := by
  obtain rfl | ⟨st, j, hcell⟩ | ⟨hcell, ho, d, hd⟩ := owner_cases s.cfg o ra
  · exact ⟨_, busRead_unmapped hc ra org, touchesOwner_of_outputs rfl⟩
  · exact ⟨_, busRead_cell hc hcell org, touchesOwner_of_outputs (by simp [hcell, isDeviceCall])⟩
  · refine ⟨{ s with trace := s.trace ++ (callOutputs sp o ra s (.devRead d ra org) ++ [.rd s.port.inputs.devRd]) },
      ?_, touchesOwner_of_outputs ?_⟩
    · rw [busRead, readOwner_device hd hl.2, accessEntry_quiet hq, ← List.append_assoc]
      exact bus_some hc rfl
    · rw [List.filter_append, callOutputs_calls (fun _ => rfl), if_pos ⟨hcell, ho⟩]
      rfl

theorem busWrite_touchesOwner {s : State} (hc : s.cartOk = true) (hl : LocksFree s) (hq : s.port.inputs.acts = .done)
    (sp : Space) (o : Owner) (ra : Addr) (org : Origin) (v : Byte) :
    ∃ t, busWrite sp o ra org v s = .next t ∧ TouchesOwner (o, ra) s t := by
  obtain rfl | ⟨st, j, hcell⟩ | ⟨hcell, ho, d, hd⟩ := owner_cases s.cfg o ra
  · exact ⟨_, busWrite_unmapped hc ra org v, touchesOwner_of_outputs rfl⟩
  · exact ⟨_, busWrite_cell hc hcell org v, touchesOwner_writeCell hcell v⟩
  · refine ⟨_, ?_, touchesOwner_of_outputs (new := callOutputs sp o ra s (.devWrite d ra org v)) ?_⟩
    · rw [busWrite, writeOwner_device hd hl.2, accessEntry_quiet hq]
      exact bus_some hc rfl
    · rw [callOutputs_calls (fun _ => rfl), if_pos ⟨hcell, ho⟩]
      rfl

/-- Settles O17: the decoded operation is a write or a read of the routed owner, and either touches that owner alone. -/
theorem oneOwnerTouched : Obligations.OneOwnerTouched := by
  intro s w i sp hsp h hc hl hq
  obtain ⟨t, ht, new, hnew⟩ : ∃ t, exec i s = .next t ∧ TouchesOwner (route sp (arg16Of w)) s t := by
    rw [exec_of_busWord hsp h]
    split
    · exact busWrite_touchesOwner hc hl hq ..
    · exact busRead_touchesOwner hc hl hq ..
  exact ⟨t, new, ht, hnew⟩

end Sys2Proof.Machine
end

section
/-! PROOFS. The picture-unit router (R152 to R158): the fold of an address from `0x4000` up, in the router and in the
table's rows, and the rows of the pattern tables, of video RAM and of palette memory. -/

namespace Sys2Proof

/-! ## Address bits 15 and 14 in the table's rows (R92, R158) -/

/-- The words of the picture-unit router, as a row: `unit` is 1 (R96). -/
def pictureUnitRow : TableRow := .w 0xF0000000#32 0x10000000#32

theorem pictureUnitRow_selects (f : BitVec 4) (a : Addr) (v : Byte) :
    pictureUnitRow.selects (.w (opWord 1#4 f a v)) = true := by
  have hmask : 0xF0000000#32 = opWord 0xF#4 0#4 0#16 0#8 := by decide
  rw [pictureUnitRow, TableRow.selects, hmask, opWord_and, BitVec.and_zero, BitVec.and_zero, BitVec.and_zero]
  decide

/-- Every bit of a word but address bits 15 and 14 (R96). -/
def foldMask : OpWord := opWord (BitVec.allOnes 4) (BitVec.allOnes 4) Config.pspaceMask (BitVec.allOnes 8)

/-- The mask of the row holds neither of address bits 15 and 14. -/
def TableRow.ignoresFold : TableRow → Bool
  | .w mask _ => foldMask &&& mask == mask
  | .s _ _ => true

/-- A row that ignores the two bits selects a word exactly if it selects the word of the folded address. -/
theorem TableRow.selects_fold {r : TableRow} (hr : r.ignoresFold = true) (u f : BitVec 4) (a : Addr) (v : Byte) :
    r.selects (.w (opWord u f a v)) = r.selects (.w (opWord u f (a &&& Config.pspaceMask) v)) := by
  cases r with
  | w mask pattern =>
    have hword : opWord u f a v &&& foldMask = opWord u f (a &&& Config.pspaceMask) v := by
      simp only [foldMask, opWord_and, BitVec.and_allOnes]
    rw [TableRow.selects, TableRow.selects, ← hword, BitVec.and_assoc, beq_iff_eq.mp hr]
  | s mask pattern => rfl

/-- Every row asks for a unit other than the picture-unit router's, or ignores the two bits: a comparison of its mask
and pattern. -/
theorem tableRow_conflicts_or_ignoresFold (i : Instr) :
    (tableRow i).conflicts pictureUnitRow = true ∨ (tableRow i).ignoresFold = true := by
  rw [← Bool.or_eq_true]
  cases i <;> rfl

/-- A picture-unit word and the word of its folded address are selected by the same rows (R158). -/
theorem tableRow_selects_fold (i : Instr) (f : BitVec 4) (a : Addr) (v : Byte) :
    (tableRow i).selects (.w (opWord 1#4 f a v)) =
      (tableRow i).selects (.w (opWord 1#4 f (a &&& Config.pspaceMask) v)) := by
  obtain hconf | hfold := tableRow_conflicts_or_ignoresFold i
  · have hnone (b : Addr) : (tableRow i).selects (.w (opWord 1#4 f b v)) = false := by
      by_contra hsel
      rw [Bool.not_eq_false] at hsel
      rw [TableRow.not_conflicts_of_selects hsel (pictureUnitRow_selects f b v)] at hconf
      cases hconf
    rw [hnone, hnone]
  · exact TableRow.selects_fold hfold ..

end Sys2Proof

namespace Sys2Proof.Machine

/-! ## The fold in the router (R63, R158) -/

/-- A read depends on its address through the route alone. -/
theorem memRead_congr {sp : Space} {a b : Addr} (h : route sp a = route sp b) (run : State → Option State)
    (org : Origin) (ans : Byte) (s : State) : memRead sp run a org ans s = memRead sp run b org ans s := by
  rw [memRead, memRead, h]

/-- A write depends on its address through the route alone. -/
theorem memWrite_congr {sp : Space} {a b : Addr} (h : route sp a = route sp b) (run : State → Option State)
    (org : Origin) (v : Byte) (s : State) : memWrite sp run a org v s = memWrite sp run b org v s := by
  rw [memWrite, memWrite, h]

theorem routeP_resolved_lt (a : Addr) : (routeP a).2.toNat < 0x4000 := by
  obtain ⟨hlt, -⟩ := routeP0_resolved (pspace_lt a)
  rwa [routeP_eq_routeP0]

/-- Settles O13: an address and its fold have one route, which is all an access sees of it, and select the same rows. -/
theorem pictureFold : Obligations.PictureFold := by
  refine ⟨fun run a org v s _ => ?_, fun a => Nat.le_of_lt_succ (routeP_resolved_lt a), fun org a v we i => ?_⟩
  · have hroute : route .p a = route .p (a &&& 0x3FFF#16) := routeP_pspace a
    exact ⟨hroute, memRead_congr hroute run org v s, memWrite_congr hroute run org v s⟩
  · exact tableRow_selects_fold i _ a v

/-! ## The rows of space `P` (R152 to R157) -/

/-- Settles O28: the rows are accesses of the cartridge at the folded address. -/
theorem patternTableAccess : Obligations.PatternTableAccess :=
  fun _ _ _ _ hc hl => ⟨callsDevice_busRead hc hl rfl rfl, callsDevice_busWrite hc hl rfl rfl⟩

/-- Settles O29: the five rows are one read of video RAM, and the row's resolved address names the cell. -/
theorem videoRead : Obligations.VideoRead := by
  intro s org a hc
  refine ⟨fun i hi => ?_, busRead_cell hc rfl org⟩
  have hrow : exec i s = busRead .p .vram ((a &&& 0x3FFF#16) &&& 0x2FFF#16) org s := by fin_cases hi <;> rfl
  exact hrow.trans (busRead_cell hc rfl org)

/-- With a cartridge a write of the owner of a cell replaces that cell, and outside the stores adds the route alone. -/
theorem busWrite_onlyCell {sp : Space} {o : Owner} {ra : Addr} {s : State} {st : Store} {j : Nat}
    (hc : s.cartOk = true) (h : ownerCell s.cfg (o, ra) = some (st, j)) (org : Origin) (v : Byte) :
    ∃ t, busWrite sp o ra org v s = .next t ∧ OnlyCell st j v s t ∧ withoutStores t = withoutStores s ∧
      t.trace = s.trace ++ [.route sp o ra] :=
  ⟨_, busWrite_cell hc h org v, onlyCell_writeCell_routed .., withoutStores_writeCell .., writeCell_trace ..⟩

/-- Settles O30: the five rows are one write of video RAM, and the row's resolved address names the cell, which the
write replaces. -/
theorem videoWrite : Obligations.VideoWrite := by
  intro s org a v hc
  refine ⟨fun i hi => ?_, busWrite_onlyCell hc rfl org v⟩
  have hrow : exec i s = busWrite .p .vram ((a &&& 0x3FFF#16) &&& 0x2FFF#16) org v s := by fin_cases hi <;> rfl
  rw [hrow]
  exact busWrite_onlyCell hc rfl org v

end Sys2Proof.Machine
end

section
/-! PROOFS. The Interrupt Aggregator (R170 to R175): the line is a matter of which sources are registered and of their
requests, and a stimulus is a matter of one request. -/

namespace Sys2Proof.Machine

/-! ## Registration and poll (R170, R172) -/

/-- Settles O31: `IRQ.REG` is `irqRegOp`, in every state. -/
theorem irqRegister : Obligations.IrqRegister := fun _ _ => rfl

/-- Settles O32: `IRQ.POLL` is the output of the line, in every state. -/
theorem irqPoll : Obligations.IrqPoll := fun _ => rfl

/-! ## The aggregate line (R171, R175) -/

theorem requesting_iff {s : State} {id : SrcId} : requesting s id = true ↔ id ∈ s.req := List.contains_iff_mem

theorem irqPending_iff {s : State} : irqPending s = true ↔ ∃ id ∈ s.src, requesting s id = true := List.any_eq_true

theorem irqPending_of_src_nil {s : State} (h : s.src = []) : irqPending s = false := by
  rw [irqPending, h, List.any_nil]

/-- Settles O33. -/
theorem aggregateLine : Obligations.AggregateLine := ⟨fun _ => irqPending_iff, fun _ => irqPending_of_src_nil⟩

/-- The line sees of the list of registered sources its members alone, neither their order nor their number. -/
theorem irqPending_congr_src {s : State} {src' : List SrcId} (h : ∀ id, id ∈ src' ↔ id ∈ s.src) :
    irqPending { s with src := src' } = irqPending s := by
  have hreq (id : SrcId) : requesting { s with src := src' } id = requesting s id := rfl
  rw [Bool.eq_iff_iff, irqPending_iff, irqPending_iff]
  simp only [h, hreq]

/-- Settles O34: a permutation, and a member appended again, leave the members of `SRC` as they are. -/
theorem orderIndependence : Obligations.OrderIndependence := by
  refine ⟨fun s src' hperm => irqPending_congr_src fun j => hperm.mem_iff.symm,
    fun s id hid => irqPending_congr_src fun j => ?_⟩
  rw [List.mem_append, List.mem_singleton, or_iff_left_of_imp]
  rintro rfl
  exact hid

/-! ## The stimulus operations (R173, R174) -/

theorem requesting_srcSetOp (id j : SrcId) (s : State) :
    requesting (srcSetOp id s) j = (j == id || requesting s j) := by
  rw [Bool.eq_iff_iff, requesting_iff, Bool.or_eq_true, beq_iff_eq, requesting_iff]
  exact mem_insertSource

theorem requesting_srcClrOp (id j : SrcId) (s : State) :
    requesting (srcClrOp id s) j = (j != id && requesting s j) := by
  rw [Bool.eq_iff_iff, requesting_iff, Bool.and_eq_true, bne_iff_ne, requesting_iff]
  exact mem_removeSource

/-- Settles O35: the two operations are `srcSetOp` and `srcClrOp`, which write the requests alone. -/
theorem sourceStimulus : Obligations.SourceStimulus := fun s id =>
  ⟨⟨srcSetOp id s, rfl, rfl, fun j => requesting_srcSetOp id j s⟩,
    ⟨srcClrOp id s, rfl, rfl, fun j => requesting_srcClrOp id j s⟩⟩

end Sys2Proof.Machine
end

section
/-! PROOFS. The Clock Coordinator, one operation at a time (R186 to R198): what each calls, what it writes when the call
has returned, and which of them move `cstate` (R185). -/

namespace Sys2Proof.Machine

/-! ## Micro-operations that call no one (R188, R196, R198) and the shutdown signal (R197) -/

/-- Settles O37: `CLK.SHUTDOWN` is `shutdownOp`, in every state. -/
theorem clockShutdown : Obligations.ClockShutdown := fun _ => rfl

theorem topOp_of_latch {s : State} (h : s.shutdownLatch = true) : topOp s = { s with cstate := .stopping } := if_pos h

theorem topOp_of_no_latch {s : State} (h : s.shutdownLatch = false) : topOp s = { s with slot := .cpu } :=
  if_neg (by simp [h])

/-- Settles O38: the two branches of the poll. -/
theorem seqTop : Obligations.SeqTop := fun _ =>
  ⟨fun h => congrArg Host.Outcome.next (topOp_of_latch h), fun h => congrArg Host.Outcome.next (topOp_of_no_latch h)⟩

/-- Settles O45: the rows are `drainOp`, `idleOp` and `haltOp`, in every state. -/
theorem seqOutsideRunning : Obligations.SeqOutsideRunning := fun _ => ⟨rfl, rfl, rfl⟩

/-! ## Micro-operations that call a collaborator (R189 to R193) -/

/-- With both locks `FREE` an entry called at an output returns, and leaves everything `control` holds (R16, R226). -/
theorem entry_returns {s : State} (hl : LocksFree s) (opened : List Device) (o : Output) :
    ∃ t, entry opened s (emit o s) = some t ∧ control t = control s := by
  obtain ⟨t, ht, hleaves⟩ := completes_entry opened s (emit o s) hl
  exact ⟨t, ht, hleaves.control⟩

/-- Settles O39: the entry returns, and `SEQ.CPU` counts it. -/
theorem seqCpu : Obligations.SeqCpu := by
  intro s hl
  obtain ⟨t, ht, hc⟩ := entry_returns hl [] (.runNext (irqPending s))
  exact ⟨t, ht, hc, finish_some (by rw [cpuOp, ht]; rfl)⟩

/-- Settles O40: with the flag set the entry returns and is counted, with the flag clear no entry is called. -/
theorem seqApu : Obligations.SeqApu := by
  refine ⟨fun s hp hl => ?_, fun s hp => finish_some (if_neg (by simp [hp]))⟩
  obtain ⟨t, ht, hc⟩ := entry_returns hl [.apu] .apuTick
  exact ⟨t, ht, hc, finish_some (by rw [apuOp, if_pos hp, ht]; rfl)⟩

theorem tickPpu_returns {s : State} (hl : LocksFree s) :
    ∃ t, entry [.ppu] s (emit .ppuTick s) = some t ∧ control t = control s ∧
      tickPpu s = some { t with nPpu := s.nPpu + 1 } := by
  obtain ⟨t, ht, hc⟩ := entry_returns hl [.ppu] .ppuTick
  exact ⟨t, ht, hc, by rw [tickPpu, ht]; rfl⟩

/-- Settles O41: either is a picture tick and a move of the slot. -/
theorem seqPpuFirst : Obligations.SeqPpuFirst := by
  intro s hl
  obtain ⟨t, ht, hc, htick⟩ := tickPpu_returns hl
  exact ⟨t, ht, hc, finish_some (by rw [ppu0Op, htick]; rfl), finish_some (by rw [ppu1Op, htick]; rfl)⟩

/-- Settles O42: a picture tick and the end of the iteration. -/
theorem seqPpuLast : Obligations.SeqPpuLast := by
  intro s hl
  obtain ⟨t, ht, hc, htick⟩ := tickPpu_returns hl
  exact ⟨t, ht, hc, finish_some (by rw [ppu2Op, htick]; rfl)⟩

/-! ## The pacing check at the times the spec admits (R194, R195) -/

/-- A time that does not go back is sampled as it is (R31). -/
theorem notBefore_of_le {floor t : Time} (h : floor.toNat ≤ t.toNat) : notBefore floor t = t :=
  if_neg (BitVec.not_lt.mpr (BitVec.le_def.mpr h))

/-- Settles O43: the times are sampled as presented, so the two branches of the check are the rule's. -/
theorem seqPace : Obligations.SeqPace := by
  intro s hnow hwake
  have hn : paceNow s = s.port.inputs.now := notBefore_of_le hnow
  have hw : paceWake s = s.port.inputs.wake := by rw [paceWake, hn, notBefore_of_le hwake]
  have he : elapsed s = s.port.inputs.now.toNat - s.tPrev.toNat := by
    rw [elapsed, hn, BitVec.toNat_sub_of_le (BitVec.le_def.mpr hnow)]
  have hexec : exec .seqPace s = .next (paceOp s) := rfl
  refine ⟨fun h => ?_, fun h => ?_⟩
  · rw [hexec, paceOp, hw, pacing, he, if_pos h]
    rfl
  · rw [hexec, paceOp, hw, pacing, he, if_neg (Nat.not_lt.mpr h), raiseEvent, emit, emit, List.append_assoc]
    rfl

/-! ## `CLK.START` (R186) -/

theorem playEntry_quiet {s : State} (h : s.port.inputs.playActs = .done) : playEntry s = some := by
  unfold playEntry
  rw [h]
  rfl

theorem startOp_idle {s : State} (hc : s.cstate = .idle) (hk : s.cartOk = true) :
    startOp s = (resetThenPlay s).map fun t =>
      { t with audioPlay := true, tPrev := s.port.inputs.now, batchCnt := 0, slot := .top, cstate := .running } :=
  if_pos ⟨hc, hk⟩

theorem startOp_elsewhere {s : State} (h : s.cstate ≠ .idle ∨ s.cartOk = false) : startOp s = some s :=
  if_neg fun ⟨hc, hk⟩ => h.elim (· hc) fun hn => by simp [hk] at hn

/-- Settles O36: in `Idle` with a cartridge the first entry returns and leaves the locks `FREE`, so the second returns
too; anywhere else the guard fails. -/
theorem clockStart : Obligations.ClockStart := by
  refine ⟨fun s hc hk hl => ?_, fun s h => finish_some (startOp_elsewhere h)⟩
  obtain ⟨t, ht, hst⟩ := completes_entry [] s (emit .cpuReset s) hl
  obtain ⟨u, hu, htu⟩ := completes_playEntry s (emit .apuPlay t) (hst.locks hl)
  have hplay : resetThenPlay s = some u := by rw [resetThenPlay, ht, Option.bind_some, hu]
  refine ⟨t, u, ht, hst.control, hu, htu.control.trans hst.control, ?_, fun hq hq' => ?_⟩
  · exact finish_some (by rw [startOp_idle hc hk, hplay]; rfl)
  · rw [entry_quiet hq] at ht
    rw [playEntry_quiet hq'] at hu
    obtain rfl := Option.some.inj ht
    obtain rfl := Option.some.inj hu
    simp [emit]

/-! ## The transitions of `cstate` (R185) -/

theorem Leaves.cstate {s t : State} (h : Leaves s t) : t.cstate = s.cstate := by
  obtain ⟨hc, -⟩ := control_fields h.control
  exact hc

/-- Settles O46: waiting and what a collaborator leaves keep `cstate`, and of the moves of the sequencer three write
it. -/
theorem coordinatorTransitions : Obligations.CoordinatorTransitions := by
  intro s t h hne
  rw [← latch_cstate s] at hne ⊢
  rw [← latch_slot s, ← latch_cartOk s, ← latch_shutdownLatch s]
  obtain rfl | h | ⟨i, hi, h⟩ := step_next h
  · exact absurd rfl hne
  · exact absurd h.cstate hne
  · cases h with
    | start hc hk _ => exact .inl ⟨hc, rfl, hk, hi⟩
    | stop hrow hc hs hlatch => exact .inr (.inl ⟨hc, rfl, hs, hlatch, by rcases hrow with rfl | rfl <;> simp [hi]⟩)
    | drain hrow hc => exact .inr (.inr ⟨hc, rfl, by rcases hrow with rfl | rfl <;> simp [hi]⟩)
    | go | skip => exact absurd rfl hne
    | cpu _ _ hm | apu _ _ _ hm | ppu0 _ _ hm | ppu1 _ _ hm | ppu2 _ _ hm | pace _ _ _ hm => exact absurd hm.cstate hne

end Sys2Proof.Machine
end

section
/-! PROOFS. Runs of the Clock Coordinator: the counts over any window (R199), an iteration (R200) and the way to
`Stopped` (R202), the last two as a simulation of the sequencer, whatever the collaborators do. -/

namespace Sys2Proof.Machine

/-! ## Runs -/

theorem run_of_step {M : Host.Core} {s t : M.State} (h : M.step s = .next t) (k : Nat) :
    M.run (k + 1) s = M.run k t := by
  rw [Host.Core.run, h]

theorem step_of_run {M : Host.Core} {s u : M.State} {k : Nat} (h : M.run (k + 1) s = .next u) :
    ∃ t, M.step s = .next t ∧ M.run k t = .next u := by
  rw [Host.Core.run] at h
  split at h
  case h_1 t hs => exact ⟨t, hs, h⟩
  all_goals cases h

/-! ## The counts over any window (R199) -/

theorem Leaves.nCpu {s t : State} (h : Leaves s t) : t.nCpu = s.nCpu := by
  have h1 := congrArg State.nCpu h.control
  exact h1

theorem Advance.nCpu_le {i : Instr} {s t : State} (h : Advance i s t) : s.nCpu ≤ t.nCpu := by
  cases h with
  | stop | go | skip | drain => exact le_rfl
  | cpu => exact Nat.le_succ _
  | start _ _ hm | apu _ _ _ hm | ppu0 _ _ hm | ppu1 _ _ hm | ppu2 _ _ hm | pace _ _ _ hm => exact hm.nCpu.ge

theorem step_nCpu_le {s t : State} (h : step s = .next t) : s.nCpu ≤ t.nCpu := by
  have hl : (latch s).nCpu = s.nCpu := by
    have h1 := congrArg State.nCpu (latch_frame s)
    exact h1
  rw [← hl]
  obtain rfl | h | ⟨i, -, h⟩ := step_next h
  · exact le_rfl
  · exact h.nCpu.ge
  · exact h.nCpu_le

/-- The invariant holds along every run, and no run takes back a processor step. -/
theorem run_keeps_inv {k : Nat} {s t : State} (hs : Inv s) (h : core.run k s = .next t) :
    Inv t ∧ s.nCpu ≤ t.nCpu := by
  induction k generalizing s with
  | zero =>
    obtain rfl : s = t := Host.Outcome.next.inj h
    exact ⟨hs, le_rfl⟩
  | succ k ih =>
    obtain ⟨u, hstep, hrun⟩ := step_of_run h
    obtain ⟨ht, hle⟩ := ih (stepKeepsInvariant s u hs hstep) hrun
    exact ⟨ht, (step_nCpu_le hstep).trans hle⟩

/-- The counts where an iteration is complete (R51 c, d). -/
theorem Inv.counts {s : State} (h : Inv s) (hb : AtBoundary s) :
    s.nPpu = 3 * s.nCpu ∧ s.nApu = s.nCpu / 2 ∧ s.apuPhase = (s.nCpu % 2 == 1) := by
  have hp := h.pictureTicks
  have ha := h.audioTicks
  have hph := h.audioPhase
  obtain hs | hs | hs := hb <;> simpa [stepsHeard, ticksDue, hs] using And.intro hp (And.intro ha hph)

/-- Settles O49: the counts at either end of the window are those of the invariant, and the flag is the parity of the
processor steps at its start. -/
theorem tickRatio : Obligations.TickRatio := by
  intro k s t hs hbs hrun hbt
  obtain ⟨ht, hle⟩ := run_keeps_inv hs hrun
  obtain ⟨hppu, hapu, hphase⟩ := hs.counts hbs
  obtain ⟨hppu', hapu', -⟩ := ht.counts hbt
  refine ⟨hle, by omega, ?_⟩
  rw [hapu, hapu', hphase]
  split
  case isTrue hodd =>
    rw [beq_iff_eq] at hodd
    omega
  case isFalse heven =>
    rw [beq_iff_eq] at heven
    omega

/-! ## The sequencer alone

A turn of the emulation agent with nothing presented is followed on what neither a collaborator nor the presentation can
write. -/

/-- What `control` holds without the operation on the port and the count of draws: the sequencer, its counters, the
locks, the parameters and what is presented. -/
def sequencer (s : State) : State := { control s with port := .tick quietInputs, draws := 0 }

theorem sequencer_of_control {s t : State} (h : control t = control s) : sequencer t = sequencer s :=
  congrArg (fun c : State => { c with port := .tick quietInputs, draws := 0 }) h

theorem sequencer_latch {s : State} (h : s.inbox = []) : sequencer (latch s) = sequencer s := by
  rw [latch_of_nothing_presented h]
  rfl

/-- A turn within an iteration (R189 to R193), as the sequencer alone shows it; none elsewhere. -/
def iterationTurn (s : State) : Option State :=
  match s.slot with
  | .cpu => some { s with nCpu := s.nCpu + 1, slot := .apu }
  | .apu => some { s with nApu := s.nApu + (if s.apuPhase then 1 else 0), apuPhase := !s.apuPhase, slot := .ppu0 }
  | .ppu0 => some { s with nPpu := s.nPpu + 1, slot := .ppu1 }
  | .ppu1 => some { s with nPpu := s.nPpu + 1, slot := .ppu2 }
  | .ppu2 => some { s with nPpu := s.nPpu + 1, batchCnt := s.batchCnt + 1,
                           slot := if s.batchCnt + 1 = s.cfg.batch then .pace else .cpu }
  | .top => none
  | .pace => none
  | .unused7 => none

/-- `Running`, with nothing presented and nobody at the locks: the next step is a turn of the emulation agent that need
not wait. -/
structure Unattended (s : State) : Prop where
  locks : LocksFree s
  inbox : s.inbox = []
  running : s.cstate = .running

theorem sequencer_unattended {s : State} : Unattended (sequencer s) ↔ Unattended s :=
  ⟨fun h => ⟨h.locks, h.inbox, h.running⟩, fun h => ⟨h.locks, h.inbox, h.running⟩⟩

theorem latch_unattended {s : State} (h : Unattended s) : Unattended (latch s) := by
  rw [latch_of_nothing_presented h.inbox]
  exact ⟨h.locks, h.inbox, h.running⟩

theorem iterationTurn_isSome {s : State} (ht : s.slot ≠ .top) (hp : s.slot ≠ .pace) (hu : s.slot ≠ .unused7) :
    ∃ u, iterationTurn s = some u := by
  rw [iterationTurn]
  cases hs : s.slot with
  | top | pace | unused7 => contradiction
  | cpu | apu | ppu0 | ppu1 | ppu2 => exact ⟨_, rfl⟩

theorem iterationTurn_unattended {s u : State} (h : iterationTurn s = some u) (hs : Unattended s) : Unattended u := by
  unfold iterationTurn at h
  split at h <;> cases h
  all_goals exact ⟨hs.locks, hs.inbox, hs.running⟩

/-- The operation the position selects writes what the turn writes, over what the collaborator called leaves. -/
theorem exec_of_iterationTurn {s u : State} (h : iterationTurn (sequencer s) = some u) (hs : Unattended s) :
    ∃ i t, decodeS (positionWord s) = .ok i ∧ exec i s = .next t ∧ sequencer t = u := by
  obtain ⟨hl, -, hc⟩ := hs
  have hslot : (sequencer s).slot = s.slot := rfl
  rw [iterationTurn, hslot] at h
  rw [decodeS_position, hc]
  cases hs : s.slot with
  | top | pace | unused7 =>
    rw [hs] at h
    cases h
  | cpu =>
    obtain ⟨m, -, hm, he⟩ := seqCpu s hl
    exact ⟨_, _, rfl, he, by simp_all [sequencer, control]⟩
  | apu =>
    cases hp : s.apuPhase with
    | true =>
      obtain ⟨m, -, hm, he⟩ := seqApu.1 s hp hl
      exact ⟨_, _, rfl, he, by simp_all [sequencer, control]⟩
    | false => exact ⟨_, _, rfl, seqApu.2 s hp, by simp_all [sequencer, control]⟩
  | ppu0 =>
    obtain ⟨m, -, hm, he, -⟩ := seqPpuFirst s hl
    exact ⟨_, _, rfl, he, by simp_all [sequencer, control]⟩
  | ppu1 =>
    obtain ⟨m, -, hm, -, he⟩ := seqPpuFirst s hl
    exact ⟨_, _, rfl, he, by simp_all [sequencer, control]⟩
  | ppu2 =>
    obtain ⟨m, -, hm, he⟩ := seqPpuLast s hl
    exact ⟨_, _, rfl, he, by simp_all [sequencer, control]⟩

theorem step_of_position {s : State} {i : Instr} (h : s.inbox = []) (hi : decodeS (positionWord s) = .ok i) :
    step s = exec i (latch s) :=
  step_ok ((fetch_of_nothing_presented h).trans hi)

/-- A step of the machine follows a turn of the sequencer. -/
theorem step_of_iterationTurn {s u : State} (h : iterationTurn (sequencer s) = some u) (hs : Unattended s) :
    ∃ t, step s = .next t ∧ Unattended t ∧ sequencer t = u := by
  have hu : Unattended u := iterationTurn_unattended h (sequencer_unattended.mpr hs)
  rw [← sequencer_latch hs.inbox] at h
  obtain ⟨i, t, hpos, he, hq⟩ := exec_of_iterationTurn h (latch_unattended hs)
  rw [positionWord, latch_cstate, latch_slot] at hpos
  exact ⟨t, (step_of_position hs.inbox hpos).trans he, sequencer_unattended.mp (hq ▸ hu), hq⟩

/-- As many turns within iterations. -/
def iterationTurns : Nat → State → Option State
  | 0, s => some s
  | k + 1, s => (iterationTurn s).bind (iterationTurns k)

/-- A run of the machine follows the turns of the sequencer. -/
theorem run_of_iterationTurns {k : Nat} {s u : State} (h : iterationTurns k (sequencer s) = some u)
    (hs : Unattended s) : ∃ t, core.run k s = .next t ∧ sequencer t = u := by
  induction k generalizing s with
  | zero => exact ⟨s, rfl, Option.some.inj h⟩
  | succ k ih =>
    obtain ⟨v, hv, hvu⟩ := Option.bind_eq_some_iff.mp h
    obtain ⟨t, hstep, ht, rfl⟩ := step_of_iterationTurn hv hs
    obtain ⟨r, hrun, hr⟩ := ih hvu ht
    exact ⟨r, (run_of_step hstep k).trans hrun, hr⟩

/-- Settles O47: from slot `CPU` five turns of the sequencer are one iteration, and the machine follows them. -/
theorem iteration : Obligations.Iteration := by
  intro s hl hi hc hs
  have hturns : iterationTurns 5 (sequencer s) = some
      { sequencer s with
        nCpu := s.nCpu + 1, nPpu := s.nPpu + 3, nApu := s.nApu + (if s.apuPhase then 1 else 0),
        apuPhase := !s.apuPhase, batchCnt := s.batchCnt + 1,
        slot := if s.batchCnt + 1 = s.cfg.batch then .pace else .cpu } := by
    simp [iterationTurns, iterationTurn, sequencer, control, hs]
  obtain ⟨t, hrun, hq⟩ := run_of_iterationTurns hturns ⟨hl, hi, hc⟩
  have hprev := congrArg State.tPrev hq
  exact ⟨t, hrun, congrArg State.nCpu hq, congrArg State.nPpu hq, congrArg State.nApu hq, congrArg State.apuPhase hq,
    congrArg State.batchCnt hq, congrArg State.slot hq, (congrArg State.cstate hq).trans hc, hprev⟩

/-! ## The way to `Stopped` (R202) -/

/-- The turns of `Running` left before the shutdown poll, when nothing is presented: five for each iteration the batch
still owes after the one in progress, what is left of that one, and the pacing. -/
def turnsToTop (s : State) : Nat :=
  match s.slot with
  | .top => 0
  | .cpu => 5 * (s.cfg.batch - s.batchCnt - 1) + 6
  | .apu => 5 * (s.cfg.batch - s.batchCnt - 1) + 5
  | .ppu0 => 5 * (s.cfg.batch - s.batchCnt - 1) + 4
  | .ppu1 => 5 * (s.cfg.batch - s.batchCnt - 1) + 3
  | .ppu2 => 5 * (s.cfg.batch - s.batchCnt - 1) + 2
  | .pace => 1
  | .unused7 => 0

/-- The turns left before `Stopped` once the latch is set: those of `Running`, `SEQ.TOP` and `SEQ.DRAIN`. -/
def turnsToStop (s : State) : Nat :=
  match s.cstate with
  | .idle => 0
  | .running => turnsToTop s + 2
  | .stopping => 1
  | .stopped => 0

/-- The clock was started and the shutdown signal came, and nothing more is presented. -/
structure ShuttingDown (s : State) : Prop where
  inv : Inv s
  inbox : s.inbox = []
  latch : s.shutdownLatch = true
  started : s.cstate ≠ .idle

theorem turnsToStop_running {s : State} (h : s.cstate = .running) : turnsToStop s = turnsToTop s + 2 := by
  rw [turnsToStop, h]

theorem turnsToTop_le {s : State} (hb : 1 ≤ s.cfg.batch) : turnsToTop s ≤ 5 * s.cfg.batch + 1 := by
  unfold turnsToTop
  split <;> omega

/-- A turn within an iteration is one of the turns left. -/
theorem turnsToTop_of_iterationTurn {s u : State} (h : iterationTurn s = some u) (hb : s.batchCnt < s.cfg.batch) :
    turnsToTop s = turnsToTop u + 1 := by
  rw [iterationTurn] at h
  cases hs : s.slot with
  | top | pace | unused7 =>
    rw [hs] at h
    cases h
  | cpu | apu | ppu0 | ppu1 =>
    rw [hs] at h
    obtain rfl := Option.some.inj h
    simp only [turnsToTop, hs]
  | ppu2 =>
    rw [hs] at h
    obtain rfl := Option.some.inj h
    simp only [turnsToTop, hs]
    by_cases hlast : s.batchCnt + 1 = s.cfg.batch
    · simp only [hlast, if_true]
      omega
    · simp only [hlast, if_false]
      omega

theorem Inv.batchCnt_lt {s : State} (h : Inv s) (hs : s.slot ≠ .pace) : s.batchCnt < s.cfg.batch := by
  obtain ⟨hle, hend⟩ := h.batch
  exact Nat.lt_of_le_of_ne hle (mt hend.mp hs)

theorem exec_seqPace (s : State) : ∃ outs wake,
    exec .seqPace s = .next { s with tPrev := wake, batchCnt := 0, slot := .top, trace := outs } := by
  obtain ⟨ns, rest, hp, -⟩ := pacing_sleep s
  exact ⟨s.trace ++ .sleep ns :: rest, paceWake s, congrArg Host.Outcome.next (by rw [paceOp, hp])⟩

/-- Within an iteration the machine follows the sequencer's turn, one nearer to the poll. -/
theorem turn_toward_top {s : State} (hinv : Inv s) (hi : s.inbox = []) (hc : s.cstate = .running)
    (htop : s.slot ≠ .top) (hpace : s.slot ≠ .pace) :
    ∃ t, step s = .next t ∧ Unattended t ∧ turnsToTop s = turnsToTop t + 1 := by
  obtain ⟨u, hu⟩ : ∃ u, iterationTurn (sequencer s) = some u := iterationTurn_isSome htop hpace hinv.slotUsed
  obtain ⟨t, hstep, ht, rfl⟩ := step_of_iterationTurn hu ⟨hinv.locks, hi, hc⟩
  have hturns : turnsToTop (sequencer s) = turnsToTop (sequencer t) + 1 :=
    turnsToTop_of_iterationTurn hu (hinv.batchCnt_lt hpace)
  exact ⟨t, hstep, ht, hturns⟩

/-- One turn nearer to `Stopped`: the drain in `Stopping`, and in `Running` the poll, the pacing or a turn within an
iteration. -/
theorem turn_toward_stop {s : State} (h : ShuttingDown s) (hc : s.cstate ≠ .stopped) :
    ∃ t, step s = .next t ∧ t.inbox = [] ∧ t.cstate ≠ .idle ∧ turnsToStop s = turnsToStop t + 1 := by
  obtain ⟨hinv, hi, hlatch, hstarted⟩ := h
  cases hc : s.cstate with
  | idle | stopped => contradiction
  | stopping =>
    have hpos : decodeS (positionWord s) = .ok .seqDrain := by rw [decodeS_position, hc]
    have he := (step_of_position hi hpos).trans (seqOutsideRunning (latch s)).1
    rw [latch_of_nothing_presented hi] at he
    exact ⟨_, he, hi, by simp, by simp [turnsToStop, hc]⟩
  | running =>
    by_cases htop : s.slot = .top
    · have hpos : decodeS (positionWord s) = .ok .seqTop := by rw [decodeS_position, hc, htop]
      have he := (step_of_position hi hpos).trans ((seqTop (latch s)).1 (by rwa [latch_shutdownLatch]))
      rw [latch_of_nothing_presented hi] at he
      exact ⟨_, he, hi, by simp, by simp [turnsToStop, turnsToTop, hc, htop]⟩
    by_cases hpace : s.slot = .pace
    · have hpos : decodeS (positionWord s) = .ok .seqPace := by rw [decodeS_position, hc, hpace]
      obtain ⟨outs, wake, he⟩ := exec_seqPace (latch s)
      rw [← step_of_position hi hpos, latch_of_nothing_presented hi] at he
      exact ⟨_, he, hi, by simp [hc], by simp [turnsToStop, turnsToTop, hc, hpace]⟩
    · obtain ⟨t, hstep, ht, hturns⟩ := turn_toward_top hinv hi hc htop hpace
      exact ⟨t, hstep, ht.inbox, by simp [ht.running],
        by rw [turnsToStop_running hc, turnsToStop_running ht.running, hturns]⟩

theorem ShuttingDown.step {s : State} (h : ShuttingDown s) (hc : s.cstate ≠ .stopped) :
    ∃ t, step s = .next t ∧ ShuttingDown t ∧ turnsToStop s = turnsToStop t + 1 := by
  obtain ⟨t, hstep, hi, hstarted, hturns⟩ := turn_toward_stop h hc
  exact ⟨t, hstep, ⟨stepKeepsInvariant s t h.inv hstep, hi, (stickyState s t hstep).1 h.latch, hstarted⟩, hturns⟩

/-- Left to itself the agent stops in as many turns as are left. -/
theorem run_to_stop {n : Nat} {s : State} (h : ShuttingDown s) (hn : turnsToStop s = n) :
    ∃ t, core.run n s = .next t ∧ Inv t ∧ t.cstate = .stopped := by
  induction n generalizing s with
  | zero =>
    refine ⟨s, rfl, h.inv, ?_⟩
    cases hc : s.cstate with
    | stopped => rfl
    | idle => exact absurd hc h.started
    | running | stopping => simp [turnsToStop, hc] at hn
  | succ n ih =>
    have hc : s.cstate ≠ .stopped := fun hc => by simp [turnsToStop, hc] at hn
    obtain ⟨t, hstep, ht, hturns⟩ := h.step hc
    obtain ⟨u, hrun, hu⟩ := ih ht (by omega)
    exact ⟨u, (run_of_step hstep n).trans hrun, hu⟩

/-- Settles O48: the turns left are at most those of a whole batch, its pacing, the poll and the drain, and in `Stopped`
the audio output is released by the invariant. -/
theorem shutdownLatency : Obligations.ShutdownLatency := by
  intro s hinv hi hc hlatch
  obtain ⟨t, hrun, ht, hstopped⟩ := run_to_stop ⟨hinv, hi, hlatch, by simp [hc]⟩ rfl
  have hle := turnsToTop_le (batch_pos_of_valid hinv.params)
  refine ⟨turnsToStop s, t, by rw [turnsToStop_running hc]; omega, hrun, hstopped, ?_⟩
  simpa [hstopped] using ht.audioOn

end Sys2Proof.Machine
end

section
/-! PROOFS. The Shared Frame State (R220 to R226): with its lock `FREE` an operation is its copy and nothing else, with
its lock held it waits. -/

namespace Sys2Proof.Machine

/-! ## The image (R220, R221) -/

theorem withoutStores_writeBytes (st : Store) (bytes : List Byte) (off : Nat) (s : State) :
    withoutStores (writeBytes st off bytes s) = withoutStores s := by
  induction bytes generalizing off s with
  | nil => rfl
  | cons b bs ih => rw [writeBytes, ih, withoutStores_writeCell]

theorem trace_writeBytes (st : Store) (bytes : List Byte) (off : Nat) (s : State) :
    (writeBytes st off bytes s).trace = s.trace := by
  induction bytes generalizing off s with
  | nil => rfl
  | cons b bs ih => rw [writeBytes, ih, writeCell_trace]

theorem readCell_writeBytes_other {st st' : Store} (h : st' ≠ st) (bytes : List Byte) (off j : Nat) (s : State) :
    readCell st' j (writeBytes st off bytes s) = readCell st' j s := by
  rw [readCell, cells_writeBytes_other h, readCell]

/-- Settles O55: within range the operation is the run of bytes, out of range it is `refuseOp`. -/
theorem imageWrite : Obligations.ImageWrite := by
  refine ⟨fun s hl hb hr => ?_, fun s h => finish_some (imgWriteOp_refused _ h)⟩
  refine ⟨_, finish_some (imgWriteOp_free _ hl hb hr), ?frame, ?outputs, ?image, ?others⟩
  case frame => exact withoutStores_writeBytes ..
  case outputs => exact trace_writeBytes ..
  case image => exact fun j => readCell_writeBytes _ _ _ j s
  case others => exact fun st j hst => readCell_writeBytes_other hst _ _ j s

theorem length_imageOf (s : State) : (imageOf s).length = s.cfg.imgSize := by
  rw [imageOf, List.length_map, List.length_range]

theorem getElem?_imageOf {s : State} {i : Nat} (h : i < s.cfg.imgSize) :
    (imageOf s)[i]? = some (readCell .img i s) := by
  rw [imageOf, List.getElem?_map, List.getElem?_range h, Option.map_some]

/-- Settles O56: the bytes are `imageOf`, the cells in order. -/
theorem imageRead : Obligations.ImageRead :=
  fun s hl => ⟨imageOf s, finish_some (imgReadOp_free hl), length_imageOf s, fun _ => getElem?_imageOf⟩

/-! ## The controller snapshot (R222, R223) -/

/-- Settles O57: the value is stored modulo `2 ^ CTRL_W`, which leaves a value of `CTRL_W` bits as it is. -/
theorem controllerWrite : Obligations.ControllerWrite :=
  fun _ hl => ⟨_, finish_some (ctrlWriteOp_free _ hl), rfl, Nat.mod_eq_of_lt, Nat.mod_lt _ (Nat.two_pow_pos _)⟩

/-- Settles O58: the copy under the lock is one output. -/
theorem controllerRead : Obligations.ControllerRead := fun _ hl => finish_some (ctrlReadOp_free hl)

/-! ## Waiting for a held lock (R226, R136) -/

theorem imgReadOp_held {s : State} (h : s.imgLock ≠ .free) : imgReadOp s = none := locked_held h

/-- The range is checked before the lock is asked for (R220). -/
theorem imgWriteOp_held {off : Nat} {bytes : List Byte} {s : State} (word : OpWord) (h : s.imgLock ≠ .free)
    (hb : bytes ≠ []) (hr : off + bytes.length ≤ s.cfg.imgSize) : imgWriteOp off bytes word s = none := by
  rw [imgWriteOp, if_neg (not_or.mpr ⟨hb, Nat.not_lt.mpr hr⟩)]
  exact locked_held h

theorem ctrlReadOp_held {s : State} (h : s.ctrlLock ≠ .free) : ctrlReadOp s = none := locked_held h

theorem ctrlWriteOp_held {s : State} (v : Nat) (h : s.ctrlLock ≠ .free) : ctrlWriteOp v s = none := locked_held h

/-- An access of the controller is held up at its reading of the snapshot (R224). -/
theorem withSnapshot_held {k : Nat → State → Option State} {s : State} (h : s.ctrlLock ≠ .free) :
    withSnapshot k s = none := by
  rw [withSnapshot, ctrlReadOp_held h, Option.bind_none]

theorem bus_none {r : Option State} {s : State} (hc : s.cartOk = true) (hr : r = none) : bus r s = .next (wait s) := by
  rw [bus, if_pos hc, finish_none hr]

theorem busRead_held {sp : Space} {s : State} (hc : s.cartOk = true) (h : s.ctrlLock ≠ .free) (ra : Addr)
    (org : Origin) : busRead sp .ctrlDev ra org s = .next (wait s) :=
  bus_none hc (by rw [readOwner, withSnapshot_held (s := routed sp .ctrlDev ra s) h])

theorem busWrite_held {sp : Space} {s : State} (hc : s.cartOk = true) (h : s.ctrlLock ≠ .free) (ra : Addr)
    (org : Origin) (v : Byte) : busWrite sp .ctrlDev ra org v s = .next (wait s) :=
  bus_none hc (by rw [writeOwner, withSnapshot_held (s := routed sp .ctrlDev ra s) h])

/-- Settles O59: under a held lock each of the operations answers nothing, and is finished by waiting. -/
theorem lockWait : Obligations.LockWait := by
  refine ⟨fun s h => ⟨?_, fun hb hr => ?_⟩, fun s org v h => ⟨?_, ?_, fun hc => ⟨?_, ?_⟩⟩⟩
  · exact finish_none (imgReadOp_held h)
  · exact finish_none (imgWriteOp_held _ h hb hr)
  · exact finish_none (ctrlReadOp_held h)
  · exact finish_none (ctrlWriteOp_held _ h)
  · exact busRead_held hc h _ org
  · exact busWrite_held hc h _ org v

end Sys2Proof.Machine
end

section
/-! PROOFS. Exceptions: a bus operation presented without a cartridge is refused by name (R242, U18). -/

namespace Sys2Proof.Machine

theorem bus_without_cartridge {s : State} (hc : s.cartOk = false) (r : Option State) :
    bus r s = .refused .noCartridge := by
  simp [bus, hc]

/-- A word of one of the two router units is presented to that router's space (R96). -/
theorem space_of_busUnit {w : OpWord} (hu : (unitOf w).toNat ≤ 1) :
    ∃ sp, sp = Space.c ∧ unitOf w = 0#4 ∨ sp = Space.p ∧ unitOf w = 1#4 := by
  obtain hu | hu : unitOf w = 0#4 ∨ unitOf w = 1#4 := by bv_omega
  · exact ⟨.c, .inl ⟨rfl, hu⟩⟩
  · exact ⟨.p, .inr ⟨rfl, hu⟩⟩

/-- Settles O18: a decoded bus operation is its space's generic entry point behind the cartridge check of `bus`, so
without a cartridge the access is never asked for. -/
theorem noCartridgeRefused : Obligations.NoCartridgeRefused := by
  intro s w i hu h hc
  obtain ⟨sp, hsp⟩ := space_of_busUnit hu
  rw [decodedFormsAreGeneric s w i sp hsp h]
  exact bus_without_cartridge hc _

end Sys2Proof.Machine
end

section
/-! PROOFS. The device-access hazard (R277): whatever is called at a mutation of the picture unit or the audio unit runs
with that unit among those being mutated, so it adds no mutation of it. -/

namespace Sys2Proof.Machine

/-- From `s` to `t` outputs were added, and `o` is the one among them at which unit `d` is mutated. -/
def OneMutation (d : Device) (o : Output) (s t : State) : Prop :=
  ∃ new, t.trace = s.trace ++ new ∧ new.filter (mutates d) = [o]

theorem exclusiveUnit_cases {o : Owner} {d : Device} (h : exclusiveUnit o = some d) : d = .ppu ∨ d = .apu := by
  cases o <;> cases h
  case ppureg => exact .inl rfl
  case apu => exact .inr rfl

theorem ownerDevice_of_exclusiveUnit {o : Owner} {d : Device} (h : exclusiveUnit o = some d) :
    ownerDevice o = some d := by
  cases o <;> cases h <;> rfl

theorem mem_entering {o : Owner} {d : Device} (h : exclusiveUnit o = some d) (opened : List Device) :
    d ∈ entering o opened :=
  List.mem_append_left _ (Option.mem_toList.mpr h)

/-- An entry called with `d` among the units being mutated adds no mutation of `d` to the one in the outputs `before`
it. -/
theorem oneMutation_of_entry {d : Device} (hu : d = .ppu ∨ d = .apu) {opened : List Device} (hd : d ∈ opened)
    {before : List Output} {o : Output} (hb : before.filter (mutates d) = [o]) {s t : State}
    (ht : entry opened s { s with trace := s.trace ++ before } = some t) : OneMutation d o s t := by
  obtain ⟨new, hnew, havoid⟩ := avoids_entry s hu hd _ t ht
  have hquiet : new.filter (mutates d) = [] := List.filter_eq_nil_iff.mpr (by simpa using havoid)
  exact ⟨before ++ new, by rw [hnew, List.append_assoc], by rw [List.filter_append, hb, hquiet, List.append_nil]⟩

/-! ## Ticks (R190 to R193) -/

theorem seqPpu_oneMutation {i : Instr} {s : State} (hi : i ∈ [Instr.seqPpu0, .seqPpu1, .seqPpu2]) (hl : LocksFree s) :
    ∃ t, exec i s = .next t ∧ OneMutation .ppu .ppuTick s t := by
  have htick : ∀ t, entry [.ppu] s { s with trace := s.trace ++ [.ppuTick] } = some t →
      OneMutation .ppu .ppuTick s t := fun _ => oneMutation_of_entry (.inl rfl) (List.mem_singleton_self _) rfl
  obtain ⟨t, ht, -, hexec0, hexec1⟩ := seqPpuFirst s hl
  obtain ⟨t', ht', -, hexec2⟩ := seqPpuLast s hl
  have hone := htick t ht
  have hone' := htick t' ht'
  fin_cases hi
  · exact ⟨_, hexec0, hone⟩
  · exact ⟨_, hexec1, hone⟩
  · exact ⟨_, hexec2, hone'⟩

theorem seqApu_oneMutation {s : State} (hl : LocksFree s) (hp : s.apuPhase = true) :
    ∃ t, exec .seqApu s = .next t ∧ OneMutation .apu .apuTick s t := by
  obtain ⟨hticks, -⟩ := seqApu
  obtain ⟨t, ht, -, hexec⟩ := hticks s hp hl
  have hone : OneMutation .apu .apuTick s t := oneMutation_of_entry (.inr rfl) (List.mem_singleton_self _) rfl ht
  exact ⟨_, hexec, hone⟩

/-! ## Accesses (R124 to R129) -/

/-- Of the outputs up to the call of its device, an access mutates the device at the call. -/
theorem callOutputs_mutates {d : Device} {call : Option Nat → Output} (h : ∀ snap, mutates d (call snap) = true)
    (sp : Space) (o : Owner) (ra : Addr) (s : State) :
    (callOutputs sp o ra s call).filter (mutates d) = [call (handedSnapshot o s)] := by
  have hroute : mutates d (.route sp o ra) = false := by cases d <;> rfl
  have hsnap : ((handedSnapshot o s).toList.map Output.ctrlValue).filter (mutates d) = [] := by
    cases handedSnapshot o s <;> cases d <;> rfl
  simp [callOutputs, hroute, hsnap, h]

/-- An operation that calls the device of an exclusive unit mutates the unit where it does so before the call. -/
theorem CallsDevice.oneMutation {o : Owner} {d : Device} {i : Instr} {s : State} {before after : List Output}
    (h : CallsDevice o i s before after) (ho : exclusiveUnit o = some d) {out : Output}
    (hb : before.filter (mutates d) = [out]) (ha : after.filter (mutates d) = []) :
    ∃ t, exec i s = .next t ∧ OneMutation d out s t := by
  obtain ⟨t, ht, -, hexec, -⟩ := h
  obtain ⟨new, hnew, hone⟩ := oneMutation_of_entry (exclusiveUnit_cases ho) (mem_entering ho []) hb ht
  exact ⟨_, hexec, new ++ after, by simp [hnew], by rw [List.filter_append, hone, ha, List.append_nil]⟩

theorem busWord_oneMutation {s : State} {w : OpWord} {i : Instr} {d : Device} (hunit : unitOf w = 0#4)
    (h : decodeW w = .ok i) (ho : exclusiveUnit (route .c (arg16Of w)).1 = some d) (hc : s.cartOk = true)
    (hl : LocksFree s) : ∃ t out, exec i s = .next t ∧ OneMutation d out s t := by
  have hdev := ownerDevice_of_exclusiveUnit ho
  have hexec := exec_of_busWord (.inl ⟨rfl, hunit⟩) h s
  split at hexec
  · have hcall := callsDevice_busWrite hc hl hdev hexec
    obtain ⟨t, ht⟩ := hcall.oneMutation ho (callOutputs_mutates (fun _ => by simp [mutates]) ..) rfl
    exact ⟨t, _, ht⟩
  · have hcall := callsDevice_busRead hc hl hdev hexec
    have hrd : [Output.rd s.port.inputs.devRd].filter (mutates d) = [] := by cases d <;> rfl
    obtain ⟨t, ht⟩ := hcall.oneMutation ho (callOutputs_mutates (fun _ => by simp [mutates]) ..) hrd
    exact ⟨t, _, ht⟩

/-- Settles O60: a tick, or the call of the routed device, is the one mutation before the collaborator's entry, and the
entry adds none. -/
theorem oneMutationAtATime : Obligations.OneMutationAtATime := by
  refine ⟨fun i s hi hl => ?_, fun s hl hp => ?_, fun s w i d hunit h ho hc hl => ?_⟩
  · obtain ⟨t, ht, new, hone⟩ := seqPpu_oneMutation hi hl
    exact ⟨t, new, ht, hone⟩
  · obtain ⟨t, ht, new, hone⟩ := seqApu_oneMutation hl hp
    exact ⟨t, new, ht, hone⟩
  · obtain ⟨t, out, ht, new, htrace, hone⟩ := busWord_oneMutation hunit h ho hc hl
    exact ⟨t, new, ht, htrace, congrArg List.length hone⟩

end Sys2Proof.Machine
end
